-- ==== Sys2Proof/Word.lean ====
section
/-! DEFINITION. The machine's words: sample indices and line levels (R8, R12). -/

namespace Sys2Proof

/-- A sample index: an unsigned 64-bit integer (R8). -/
abbrev Sample := BitVec 64

/-- A level of the signal line (R12). -/
inductive Level where
  | low
  | high
deriving DecidableEq, Repr, Inhabited

/-- `other(L)`, the opposite level (R12). -/
def Level.other : Level → Level
  | .low => .high
  | .high => .low

end Sys2Proof
end

