-- ==== Sys2Proof/Config.lean ====
section
/-! DEFINITION. What is fixed for this hardware: the named numeric constants of R9 with their normative defaults, the width of
a line identifier, which the spec leaves OPEN (R8, D21), and one free value. -/

namespace Sys2Proof.Config

/-- `GAP_MIN_US`: lower bound of the telemetry gap window, exclusive, in microseconds (R9). -/
abbrev gapMinUs : Nat := 15

/-- `GAP_MAX_US`: upper bound of the telemetry gap window, exclusive, in microseconds (R9). -/
abbrev gapMaxUs : Nat := 45

/-- `ONE_NUM`: a bit is 1 iff its proportion is greater than `ONE_NUM / ONE_DEN` (R9). -/
abbrev oneNum : Nat := 1

/-- `ONE_DEN` (R9). -/
abbrev oneDen : Nat := 2

/-- `SHORT_NUM`: a pulse is short iff its proportion is less than `SHORT_NUM / SHORT_DEN` (R9). -/
abbrev shortNum : Nat := 1

/-- `SHORT_DEN` (R9). -/
abbrev shortDen : Nat := 5

/-- `LATE_NUM`: an edge is late iff its distance is greater than `LATE_NUM / LATE_DEN` bit periods (R9). -/
abbrev lateNum : Nat := 3

/-- `LATE_DEN` (R9). -/
abbrev lateDen : Nat := 2

/-- `TLM_RATE_NUM`: telemetry bit rate over command bit rate is `TLM_RATE_NUM / TLM_RATE_DEN` (R9). -/
abbrev tlmRateNum : Nat := 5

/-- `TLM_RATE_DEN` (R9). -/
abbrev tlmRateDen : Nat := 4

/-- `TLM_SLACK_NUM`: the telemetry window's slack is `TLM_SLACK_NUM / TLM_SLACK_DEN` (R9). -/
abbrev tlmSlackNum : Nat := 6

/-- `TLM_SLACK_DEN` (R9). -/
abbrev tlmSlackDen : Nat := 5

/-- `MIN_SR_FACTOR`: the least legal sample rate is `K * MIN_SR_FACTOR` (R9). -/
abbrev minSrFactor : Nat := 4000

/-- `LINE_ID_WIDTH`, OPEN (R8, D21): nothing is known of it, and no decoding rule reads the register it sizes (R105). -/
opaque lineIdWidth : Nat

/-- The free level that a read outside the telemetry log gives, by the index read: R207 defines no entry there and derives that
no run reads one (log entry 14). -/
opaque unloggedLevel : Nat → Level

end Sys2Proof.Config
end

