-- ==== Sys2Proof/Syntax.lean ====
section
/-! DEFINITION. The encoded values of the block, one constructor of `Instr` per row of the opcode table: the state codes,
the event records, the marker classes, the two line words and the configuration control register. -/

namespace Sys2Proof

/-- The classification of a marker (R316). -/
inductive MarkerClass where
  | zero
  | one
  | start
  | stop
  | error
deriving DecidableEq, Repr

/-- The fields of a `CMD_FRAME` record (R312). -/
structure CmdFrame where
  payload : BitVec 11
  raw     : BitVec 16
  crcOk   : Bool
  tlmReq  : Bool
  err     : Bool
  start   : Sample
  stop    : Sample
deriving DecidableEq, Repr

/-- The fields of a `TLM_FRAME` record (R313). -/
structure TlmFrame where
  data  : BitVec 20
  start : Sample
  stop  : Sample
deriving DecidableEq, Repr

/-- An event record of the output trace (R310). The reserved tags are never emitted, so they have no event. -/
inductive Event where
  | marker (cls : MarkerClass) (sample : Sample)
  | cmdFrame (f : CmdFrame)
  | tlmFrame (f : TlmFrame)
  | commitPacket
  | commitResults
deriving DecidableEq, Repr

/-- The six code spaces of the opcode table. The same number means different things in different spaces. -/
inductive Space where
  | fsm      -- state codes, 4 bits (R320)
  | event    -- event records, tag in bits [2:0] (R310)
  | cls      -- a MARKER record's bits above its tag: the class, then the sample (R311, R316)
  | cmdWord  -- command word, 16 bits (R300)
  | tlmWord  -- telemetry word, 20 bits (R304)
  | cfgCtrl  -- configuration control register, 32 bits (R103)
deriving DecidableEq, Repr

/-- An encoded value: its code space and its bits, bit 0 the least significant. -/
structure CodeWord where
  space : Space
  bits  : Nat
deriving DecidableEq, Repr

/-- One constructor per row of the opcode table.

State codes take their operands from registers (R322), so they have no fields. The rows of marker classes carry the sample
index that stands above the class in the record (DESIGN CHOICE, log entry 6). -/
inductive Instr where
  -- state codes (R320, R321)
  | align
  | scanBit
  | tlmRecord
  | tlmSample
  | emitTlm
  | emitCmd
  | emitAbort
  | checkpoint
  | done
  | fault
  | reservedFsm1010
  | reservedFsm1011
  | reservedFsm1100
  | reservedFsm1101
  | reservedFsm1110
  | reservedFsm1111
  -- event records (R310 to R315)
  | marker (cls : MarkerClass) (sample : Sample)
  | cmdFrame (f : CmdFrame)
  | tlmFrame (f : TlmFrame)
  | commitPacket
  | commitResults
  | reservedTag101
  | reservedTag110
  | reservedTag111
  -- marker classes (R316)
  | markerZero (sample : Sample)
  | markerOne (sample : Sample)
  | markerStart (sample : Sample)
  | markerStop (sample : Sample)
  | markerError (sample : Sample)
  | markerReserved101 (sample : Sample)
  | markerReserved110 (sample : Sample)
  | markerReserved111 (sample : Sample)
  -- line words (R300, R304) and the configuration control register (R103)
  | cmdWord (payload : BitVec 11) (tlmReq : BitVec 1) (crc : BitVec 4)
  | tlmWord (data : BitVec 20)
  | cfgCtrl (reserved : BitVec 29) (bidir : BitVec 1) (rate : BitVec 2)
deriving DecidableEq, Repr

end Sys2Proof
end

