-- ==== Sys2Proof/Decode.lean ====
section
/-! DEFINITION. The decoder of each code space, total on any bits and rejecting by name, and after it the encoder, both
written from the tables of 30_encoding.md. -/

namespace Sys2Proof

/-! ## State codes (R320) -/

namespace Fsm
def align      : BitVec 4 := 0b0000
def scanBit    : BitVec 4 := 0b0001
def tlmRecord  : BitVec 4 := 0b0010
def tlmSample  : BitVec 4 := 0b0011
def emitTlm    : BitVec 4 := 0b0100
def emitCmd    : BitVec 4 := 0b0101
def emitAbort  : BitVec 4 := 0b0110
def checkpoint : BitVec 4 := 0b0111
def done       : BitVec 4 := 0b1000
def fault      : BitVec 4 := 0b1001
end Fsm

/-! ## Decoding -/

/-- Why an encoded value is rejected. -/
inductive DecodeError where
  /-- a bit is set above the value's format (its length is fixed by its space, or by its tag: R310, R322) -/
  | tooWide
  /-- a `MARKER` record with one of the reserved class codes (R316) -/
  | reservedClass
  /-- a state code where a value of a port is expected: a state code is only ever read from `fsm` (R322) -/
  | stateCodeAtPort
deriving DecidableEq, Repr

/-- What the decoder answers. -/
inductive Decoded where
  | ok (i : Instr)
  | rejected (e : DecodeError)
deriving DecidableEq, Repr

/-- The instruction of a successful decoding. -/
def Decoded.instr? : Decoded → Option Instr
  | .ok i => some i
  | .rejected _ => none

/-- Reject a value that has a bit above its `width`. -/
def fits (width n : Nat) (d : Decoded) : Decoded :=
  if n < 2 ^ width then d else .rejected .tooWide

/-- State codes (R320, R321). -/
def decodeFsm (c : BitVec 4) : Instr :=
  match c with
  | 0b0000 => .align
  | 0b0001 => .scanBit
  | 0b0010 => .tlmRecord
  | 0b0011 => .tlmSample
  | 0b0100 => .emitTlm
  | 0b0101 => .emitCmd
  | 0b0110 => .emitAbort
  | 0b0111 => .checkpoint
  | 0b1000 => .done
  | 0b1001 => .fault
  | 0b1010 => .reservedFsm1010
  | 0b1011 => .reservedFsm1011
  | 0b1100 => .reservedFsm1100
  | 0b1101 => .reservedFsm1101
  | 0b1110 => .reservedFsm1110
  | _      => .reservedFsm1111  -- 0b1111, the one code left

/-- Marker classes (R316). -/
def decodeClass (c : BitVec 3) : Option MarkerClass :=
  match c with
  | 0b000 => some .zero
  | 0b001 => some .one
  | 0b010 => some .start
  | 0b011 => some .stop
  | 0b100 => some .error
  | 0b101 => none
  | 0b110 => none
  | _     => none  -- 0b111, the one code left

/-- A `MARKER` record: `[5:3]` class, `[69:6]` sample (R311). -/
def decodeMarker (r : BitVec 70) : Decoded :=
  match decodeClass (r.extractLsb' 3 3) with
  | some c => .ok (.marker c (r.extractLsb' 6 64))
  | none => .rejected .reservedClass

/-- A `CMD_FRAME` record (R312). -/
def decodeCmdFrame (r : BitVec 161) : CmdFrame where
  payload := r.extractLsb' 3 11
  raw     := r.extractLsb' 14 16
  crcOk   := r.getLsbD 30
  tlmReq  := r.getLsbD 31
  err     := r.getLsbD 32
  start   := r.extractLsb' 33 64
  stop    := r.extractLsb' 97 64

/-- A `TLM_FRAME` record (R313). -/
def decodeTlmFrame (r : BitVec 151) : TlmFrame where
  data  := r.extractLsb' 3 20
  start := r.extractLsb' 23 64
  stop  := r.extractLsb' 87 64

/-- Event records: "the tag alone decides the record kind and its length" (R310). -/
def decodeEvent (n : Nat) : Decoded :=
  match BitVec.ofNat 3 n with
  | 0b000 => fits 70 n (decodeMarker (BitVec.ofNat 70 n))
  | 0b001 => fits 161 n (.ok (.cmdFrame (decodeCmdFrame (BitVec.ofNat 161 n))))
  | 0b010 => fits 151 n (.ok (.tlmFrame (decodeTlmFrame (BitVec.ofNat 151 n))))
  | 0b011 => fits 3 n (.ok .commitPacket)
  | 0b100 => fits 3 n (.ok .commitResults)
  | 0b101 => fits 3 n (.ok .reservedTag101)
  | 0b110 => fits 3 n (.ok .reservedTag110)
  | _     => fits 3 n (.ok .reservedTag111)  -- 0b111, the one tag left

/-- A marker class row with the record's sample above it: `[2:0]` class, `[66:3]` sample (R311, R316). -/
def decodeClassRow (r : BitVec 67) : Instr :=
  let sample := r.extractLsb' 3 64
  match r.extractLsb' 0 3 with
  | 0b000 => .markerZero sample
  | 0b001 => .markerOne sample
  | 0b010 => .markerStart sample
  | 0b011 => .markerStop sample
  | 0b100 => .markerError sample
  | 0b101 => .markerReserved101 sample
  | 0b110 => .markerReserved110 sample
  | _     => .markerReserved111 sample  -- 0b111, the one code left

/-- A command word: `[15:5]` payload, `[4]` telemetry request, `[3:0]` CRC nibble (R300). -/
def decodeCmdWord (w : BitVec 16) : Instr :=
  .cmdWord (w.extractLsb' 5 11) (w.extractLsb' 4 1) (w.extractLsb' 0 4)

/-- `CFG_CTRL`: `[1:0]` RATE, `[2]` BIDIR, `[31:3]` reserved (R103). -/
def decodeCfgCtrl (v : BitVec 32) : Instr :=
  .cfgCtrl (v.extractLsb' 3 29) (v.extractLsb' 2 1) (v.extractLsb' 0 2)

/-- The decoder. -/
def decode (c : CodeWord) : Decoded :=
  match c.space with
  | .fsm     => fits 4 c.bits (.ok (decodeFsm (BitVec.ofNat 4 c.bits)))
  | .event   => decodeEvent c.bits
  | .cls     => fits 67 c.bits (.ok (decodeClassRow (BitVec.ofNat 67 c.bits)))
  | .cmdWord => fits 16 c.bits (.ok (decodeCmdWord (BitVec.ofNat 16 c.bits)))
  | .tlmWord => fits 20 c.bits (.ok (.tlmWord (BitVec.ofNat 20 c.bits)))
  | .cfgCtrl => fits 32 c.bits (.ok (decodeCfgCtrl (BitVec.ofNat 32 c.bits)))

/-- The decoder of a value that stands at a port of its own format (log entry 5): every space but the state codes'. -/
def decodePort (c : CodeWord) : Decoded :=
  if c.space = .fsm then .rejected .stateCodeAtPort else decode c

/-- The code space of a table word that is `nbits` long: the rows' formats, exact or rounded up to whole bytes. Rows of 3
bits share their numbers with the state codes, so a word of one byte is read as a state code, which is the only kind of word
that chooses an operation (R322); DESIGN CHOICE, log entry 4. -/
def spaceOfWidth (nbits : Nat) : Option Space :=
  match nbits with
  | 3 => some .event
  | 4 => some .fsm
  | 8 => some .fsm
  | 16 => some .cmdWord
  | 20 => some .tlmWord
  | 24 => some .tlmWord
  | 32 => some .cfgCtrl
  | 67 => some .cls
  | 70 => some .event
  | 72 => some .event
  | 151 => some .event
  | 152 => some .event
  | 161 => some .event
  | 168 => some .event
  | _ => none

/-- The instruction the decoder reads from a table word of `nbits` bits. -/
def decodeTableWord (nbits w : Nat) : Option Instr :=
  match spaceOfWidth nbits with
  | some sp => (decode ⟨sp, w⟩).instr?
  | none => none

/-! ## Encoding -/

/-- The class code of a marker (R316). -/
def MarkerClass.code : MarkerClass → BitVec 3
  | .zero  => 0b000
  | .one   => 0b001
  | .start => 0b010
  | .stop  => 0b011
  | .error => 0b100

/-- A `MARKER` record, 70 bits (R311). -/
def encodeMarker (c : MarkerClass) (sample : Sample) : BitVec 70 :=
  sample ++ c.code ++ 0b000#3

/-- A `CMD_FRAME` record, 161 bits (R312). -/
def encodeCmdFrame (f : CmdFrame) : BitVec 161 :=
  f.stop ++ f.start ++ BitVec.ofBool f.err ++ BitVec.ofBool f.tlmReq ++ BitVec.ofBool f.crcOk ++ f.raw ++ f.payload ++ 0b001#3

/-- A `TLM_FRAME` record, 151 bits (R313). -/
def encodeTlmFrame (f : TlmFrame) : BitVec 151 :=
  f.stop ++ f.start ++ f.data ++ 0b010#3

/-- A marker class row with its sample above it. -/
def encodeClassRow (c : BitVec 3) (sample : Sample) : BitVec 67 :=
  sample ++ c

/-- The bits of an event record of the trace (R310 to R315). -/
def Event.encode : Event → Nat
  | .marker c sample => (encodeMarker c sample).toNat
  | .cmdFrame f => (encodeCmdFrame f).toNat
  | .tlmFrame f => (encodeTlmFrame f).toNat
  | .commitPacket => 0b011
  | .commitResults => 0b100

/-- The encoder: every instruction's space and bits. -/
def encode : Instr → CodeWord
  | .align             => ⟨.fsm, 0b0000⟩
  | .scanBit           => ⟨.fsm, 0b0001⟩
  | .tlmRecord         => ⟨.fsm, 0b0010⟩
  | .tlmSample         => ⟨.fsm, 0b0011⟩
  | .emitTlm           => ⟨.fsm, 0b0100⟩
  | .emitCmd           => ⟨.fsm, 0b0101⟩
  | .emitAbort         => ⟨.fsm, 0b0110⟩
  | .checkpoint        => ⟨.fsm, 0b0111⟩
  | .done              => ⟨.fsm, 0b1000⟩
  | .fault             => ⟨.fsm, 0b1001⟩
  | .reservedFsm1010   => ⟨.fsm, 0b1010⟩
  | .reservedFsm1011   => ⟨.fsm, 0b1011⟩
  | .reservedFsm1100   => ⟨.fsm, 0b1100⟩
  | .reservedFsm1101   => ⟨.fsm, 0b1101⟩
  | .reservedFsm1110   => ⟨.fsm, 0b1110⟩
  | .reservedFsm1111   => ⟨.fsm, 0b1111⟩
  | .marker c sample   => ⟨.event, (encodeMarker c sample).toNat⟩
  | .cmdFrame f        => ⟨.event, (encodeCmdFrame f).toNat⟩
  | .tlmFrame f        => ⟨.event, (encodeTlmFrame f).toNat⟩
  | .commitPacket      => ⟨.event, 0b011⟩
  | .commitResults     => ⟨.event, 0b100⟩
  | .reservedTag101    => ⟨.event, 0b101⟩
  | .reservedTag110    => ⟨.event, 0b110⟩
  | .reservedTag111    => ⟨.event, 0b111⟩
  | .markerZero s        => ⟨.cls, (encodeClassRow 0b000 s).toNat⟩
  | .markerOne s         => ⟨.cls, (encodeClassRow 0b001 s).toNat⟩
  | .markerStart s       => ⟨.cls, (encodeClassRow 0b010 s).toNat⟩
  | .markerStop s        => ⟨.cls, (encodeClassRow 0b011 s).toNat⟩
  | .markerError s       => ⟨.cls, (encodeClassRow 0b100 s).toNat⟩
  | .markerReserved101 s => ⟨.cls, (encodeClassRow 0b101 s).toNat⟩
  | .markerReserved110 s => ⟨.cls, (encodeClassRow 0b110 s).toNat⟩
  | .markerReserved111 s => ⟨.cls, (encodeClassRow 0b111 s).toNat⟩
  | .cmdWord p t c       => ⟨.cmdWord, (p ++ t ++ c).toNat⟩
  | .tlmWord d           => ⟨.tlmWord, d.toNat⟩
  | .cfgCtrl z b r       => ⟨.cfgCtrl, (z ++ b ++ r).toNat⟩

end Sys2Proof
end

