-- ==== Sys2Proof/Machine/State.lean ====
section
/-! DEFINITION. The machine's state as plain data, its reset value, and the reasons a step can stop. -/

namespace Sys2Proof.Machine

/-- Why the machine stops with a fault. -/
inductive Fault where
  /-- Raised by the six reserved state codes (R321, I10: "stuck (no operation is defined)"). Safe: no run reaches one. -/
  | reservedState (code : BitVec 4)
  /-- Raised by the three reserved event tags (R310: "must reject the record"; I10: stuck). Safe: none is ever emitted. -/
  | reservedTag (tag : BitVec 3)
  /-- Raised by the three reserved marker classes (R316, I10: stuck). Safe: none is ever emitted. -/
  | reservedClass (code : BitVec 3)
  /-- Raised by a step of the block in a state that holds the reserved `stop_cause` 3 (R317, I10: stuck). Safe: no run reaches
  one. -/
  | reservedStopCause
deriving DecidableEq, Repr

/-- Why the machine refuses a step. -/
inductive Refusal where
  /-- An instruction that has no meaning yet. Safe. No arm of exec answers with it. -/
  | notModelled (mnemonic : String)
  /-- Raised by reset release with an illegal configuration: ConfigRefused (R611). Safe. -/
  | configRefused
  /-- Raised by an edge source whose stream is not well-formed: StreamIllFormed (R612). Safe. -/
  | streamIllFormed
  /-- Raised by a move that lies outside the powers of the host and of the edge source (R615). Safe. Log entry 15. -/
  | moveNotOffered
  /-- Raised by a value at a port that its decoder rejects. Safe. -/
  | undecodable (e : DecodeError)
deriving DecidableEq, Repr

/-- A move of the host or of the edge source (R10, R11, R123, R615). -/
inductive EnvMove where
  | assertReset                                                              -- R701
  | releaseReset                                                             -- R701, R702
  | writeReg (n v : Nat)                                                     -- a register write (R102)
  | cancel                                                                   -- the cancel strobe (R123)
  | cancelAt (n : Nat)                                                       -- the input CANCEL@n (R323, I13)
  | attach (level : Level) (pos : Sample) (edges : List Sample) (closed : Bool)  -- attach the edge source (R10, R702)
  | edge (t : Sample)                                                        -- append one edge (R11)
  | close                                                                    -- close the stream (R11)
deriving DecidableEq, Repr

/-- One entry of the schedule: whose move is next (log entry 2). -/
inductive Move where
  | block                 -- the decoder takes its step
  | value (c : CodeWord)  -- an encoded value at the port of its format (log entry 5)
  | env (m : EnvMove)     -- the host or the edge source moves
deriving DecidableEq, Repr

/-- An entry of the telemetry log (R205). -/
structure LogEntry where
  level : Level
  t     : Sample
deriving DecidableEq, Repr

/-- The edge input's state, held by the edge source and kept in the machine's state (R120). -/
structure EdgeInput where
  curPos   : Sample
  curLevel : Level
  pending  : List Sample
  closed   : Bool
deriving DecidableEq, Repr

/-- What reading the edge input gives: a value and the moved cursor, a hold (R202, R203), or `Exhausted` with the cursor where
the consumed edges leave it (R212). -/
inductive EdgeRead (α : Type) where
  | ok (a : α) (c : EdgeInput)
  | hold
  | exhausted (c : EdgeInput)
deriving DecidableEq, Repr

/-- The state of the block, of the environment it observes, and the model's own fields (INVENTORY.md). -/
structure State where
  -- configuration registers (R102)
  cfgCtrl       : BitVec 32
  cfgSampleRate : BitVec 64
  cfgLine       : Nat           -- always below 2 ^ LINE_ID_WIDTH (log entry 11)
  -- decoder registers (R111)
  fsm           : BitVec 4
  bitIdx        : BitVec 4
  word          : BitVec 16
  frameStart    : Sample
  rising        : Sample
  lastEnd       : Sample
  tlmStart      : Sample
  tlmEnd        : Sample
  tlmLog        : List LogEntry
  tlmK          : BitVec 5
  tlmJ          : Nat
  tlmData       : BitVec 20
  stopCause     : BitVec 2
  faultCode     : BitVec 3
  cancelReq     : Bool
  -- the output trace, oldest event first (R121, R210)
  trace         : List Event
  -- the edge input (R120)
  edge          : EdgeInput
  -- whether reset is asserted (R701)
  inReset       : Bool
  -- the model's own fields
  tlmLogCap     : Option Nat    -- TLM_LOG_CAP, none = unbounded (R9, R206; log entry 10)
  cancelAt      : Option Nat    -- CANCEL@n, counted down (I13; log entry 16)
  schedule      : List Move     -- the moves to come (log entry 2)
deriving DecidableEq, Repr

/-- The machine while reset is asserted: every register at its value of R700, no stream attached, no move scheduled. -/
def State.reset : State where
  cfgCtrl       := 0x00000000
  cfgSampleRate := 0
  cfgLine       := 0
  fsm           := Fsm.align
  bitIdx        := 0
  word          := 0x0000
  frameStart    := 0
  rising        := 0
  lastEnd       := 0
  tlmStart      := 0
  tlmEnd        := 0
  tlmLog        := []
  tlmK          := 0
  tlmJ          := 0
  tlmData       := 0x00000
  stopCause     := 0
  faultCode     := 0
  cancelReq     := false
  trace         := []
  edge          := { curPos := 0, curLevel := .low, pending := [], closed := false }
  inReset       := true
  tlmLogCap     := none
  cancelAt      := none
  schedule      := []

end Sys2Proof.Machine
end

