-- ==== Sys2Proof/Machine/Operands.lean ====
section
/-! DEFINITION. What the operations read: the constants derived from the configuration, the window functions, the fields of
the words, and the register map. -/

namespace Sys2Proof.Machine

/-! ## Derived constants (R110) -/

/-- `K`, the nominal bit rate in kbit/s of a RATE code (R103). -/
def kbpsOfRate (rate : BitVec 2) : Nat :=
  match rate with
  | 0b00 => 150
  | 0b01 => 300
  | 0b10 => 600
  | _    => 1200  -- 0b11, the one code left

/-- `K` of the loaded configuration. -/
def State.kbps (s : State) : Nat := kbpsOfRate (s.cfgCtrl.extractLsb' 0 2)

/-- `BIDIR` of the loaded configuration (R103). -/
def State.bidir (s : State) : Bool := s.cfgCtrl.getLsbD 2

/-- `SR` of the loaded configuration (R104). -/
def State.sampleRate (s : State) : Nat := s.cfgSampleRate.toNat

/-- `K * MIN_SR_FACTOR` (R108). -/
def State.minSampleRate (s : State) : Nat := Config.minSrFactor * s.kbps

/-- A configuration that a run may start with (R104, R611). -/
def State.configLegal (s : State) : Bool := decide (s.minSampleRate ≤ s.sampleRate)

/-- `SPB`, samples per command bit: `floor(SR / (K * 1000))` (R400). -/
def State.spb (s : State) : Nat := s.sampleRate / (1000 * s.kbps)

/-- `ACT`, the active level (R401). -/
def State.act (s : State) : Level := if s.bidir then .low else .high

/-- `INACT`, the inactive level (R401). -/
def State.inact (s : State) : Level := if s.bidir then .high else .low

/-! ## Window functions -/

/-- `InTlmWindow(gap)` at sample rate `sr` (R450). -/
def inTlmWindow (sr gap : Nat) : Bool :=
  decide (Config.gapMinUs * sr < 1000000 * gap) && decide (1000000 * gap < Config.gapMaxUs * sr)

/-- `TlmExceeded(e)` at sample rate `sr` and bit rate `kbps`: `e > TLM_MAX`, cross-multiplied (R451). -/
def tlmExceeded (sr kbps e : Nat) : Bool :=
  decide (20 * Config.tlmSlackNum * Config.tlmRateDen * sr < 1000 * Config.tlmRateNum * Config.tlmSlackDen * kbps * e)

/-- `D = tlm_end - tlm_start` (R454). -/
def State.tlmDuration (s : State) : Nat := s.tlmEnd.toNat - s.tlmStart.toNat

/-- Forty times the distance of sample point `s_k` from `tlm_start`: `(2k + 1) * D` (R454). -/
def samplePoint40 (k d : Nat) : Nat := (2 * k + 1) * d

/-! ## Fields of the words -/

/-- `payload = word[15:5]` (R301, R550). -/
def payloadOf (w : BitVec 16) : BitVec 11 := w.extractLsb' 5 11

/-- `tlm_req = word[4]` (R302, R550). -/
def tlmReqOf (w : BitVec 16) : Bool := w.getLsbD 4

/-- The CRC nibble, `word[3:0]` (R303). -/
def crcNibbleOf (w : BitVec 16) : BitVec 4 := w.extractLsb' 0 4

/-- `v[i] <- b`. -/
def setBit {n : Nat} (v : BitVec n) (i : Nat) (b : Bool) : BitVec n :=
  (v &&& ~~~(1#n <<< i)) ||| ((BitVec.ofBool b).setWidth n <<< i)

/-! ## The register map (R102) -/

/-- `STATUS` (R107). -/
def State.status (s : State) : BitVec 32 :=
  0#14 ++ s.faultCode ++ s.stopCause ++ s.tlmK ++ s.bitIdx ++ s.fsm

/-- `CANCEL` as it reads: bit 0 is `cancel_req`, and 0 in reset (R102, R109). -/
def State.cancelReg (s : State) : BitVec 32 :=
  if s.inReset then 0 else (BitVec.ofBool s.cancelReq).setWidth 32

/-- What reading register `n` returns; reading has no side effect (R107). There are six registers. -/
def State.readReg (s : State) (n : Nat) : Option Nat :=
  match n with
  | 0 => some (s.cfgCtrl &&& 0x00000007).toNat  -- the reserved bits read 0 (R103)
  | 1 => some s.cfgSampleRate.toNat
  | 2 => some s.cfgLine
  | 3 => some s.status.toNat
  | 4 => some s.minSampleRate
  | 5 => some s.cancelReg.toNat
  | _ => none

/-- A write of `CFG_CTRL`: the reserved bits [31:3] are ignored and read 0 (R103), and a write during a run is ignored whole
(R106). -/
def State.writeCfgCtrl (s : State) (v : BitVec 32) : State :=
  if s.inReset then { s with cfgCtrl := v &&& 0x00000007 } else s

/-- A write of `CFG_SAMPLE_RATE` (R104, R106). -/
def State.writeCfgSampleRate (s : State) (v : BitVec 64) : State :=
  if s.inReset then { s with cfgSampleRate := v } else s

/-- A write of `CFG_LINE`, `LINE_ID_WIDTH` bits (R105, R106). -/
def State.writeCfgLine (s : State) (v : Nat) : State :=
  if s.inReset then { s with cfgLine := v % 2 ^ Config.lineIdWidth } else s

/-- Set `cancel_req`: ignored in reset (R102), sticky (R109). -/
def State.setCancel (s : State) : State :=
  if s.inReset then s else { s with cancelReq := true }

/-- A write of `CANCEL`: bit 0 is write-1-to-set, and writing 0 has no effect (R109). -/
def State.writeCancel (s : State) (v : BitVec 32) : State :=
  if v.getLsbD 0 then s.setCancel else s

end Sys2Proof.Machine
end

