-- ==== Sys2Proof/Machine/Flags.lean ====
section
/-! DEFINITION. The tests and flags the operations compute: the pulse tests, the marker class, the CRC verdict and the command
frame's flags. None of them is stored in a register (R119). -/

namespace Sys2Proof.Machine

/-- `IsOne(w)`, the bit value of a pulse of width `w` (R405). -/
def isOne (spb w : Nat) : Bool := decide (Config.oneNum * spb < Config.oneDen * w)

/-- `IsShort(w)`, the short-pulse test (R406). -/
def isShort (spb w : Nat) : Bool := decide (Config.shortDen * w < Config.shortNum * spb)

/-- `IsLate(d)`, the late-edge test (R407). -/
def isLate (spb d : Nat) : Bool := decide (Config.lateNum * spb < Config.lateDen * d)

/-- `MarkerClass(err, pos, bit)` (R408). -/
def markerClass (err : Bool) (pos : Nat) (bit : Bool) : MarkerClass :=
  if err then .error
  else if pos = 4 then (if bit then .start else .stop)
  else (if bit then .one else .zero)

/-- `crc4(word) = word[7:4] ^ word[11:8] ^ word[15:12]` (R500). -/
def crc4 (w : BitVec 16) : BitVec 4 :=
  w.extractLsb' 4 4 ^^^ w.extractLsb' 8 4 ^^^ w.extractLsb' 12 4

/-- `CrcOk(word, BIDIR)`, the CRC verdict (R501). -/
def crcOk (w : BitVec 16) (bidir : Bool) : Bool :=
  if bidir then crcNibbleOf (~~~w) == crc4 w else crcNibbleOf w == crc4 w

/-- The command frame of `word`: its fields (R550) with `crc_ok` as given and `err = not crc_ok`, which holds on both emission
paths (R552). -/
def commandFrame (word : BitVec 16) (ok : Bool) (start stop : Sample) : CmdFrame where
  payload := payloadOf word
  raw     := word
  crcOk   := ok
  tlmReq  := tlmReqOf word
  err     := !ok
  start   := start
  stop    := stop

end Sys2Proof.Machine
end

