-- ==== Sys2Proof/Machine/Ops.lean ====
section
/-! DEFINITION. The operations the meanings share: reading the edge input, the telemetry log, the output trace, and how a step
ends: committed, held, exhausted, overflowed. -/

namespace Sys2Proof.Machine

/-! ## Edge input (R201 to R204) -/

/-- `Advance()` (R202). -/
def EdgeInput.advance (c : EdgeInput) : EdgeRead Sample :=
  match c.pending with
  | t :: rest => .ok t { c with curPos := t, curLevel := c.curLevel.other, pending := rest }
  | [] => if c.closed then .exhausted c else .hold

/-- `Peek()` (R203). -/
def EdgeInput.peek (c : EdgeInput) : EdgeRead Sample :=
  match c.pending with
  | t :: _ => .ok t c
  | [] => if c.closed then .exhausted c else .hold

/-- Run `f` on what a read gives; a hold or an exhaustion ends the operation there. -/
def EdgeRead.bind {α β : Type} (x : EdgeRead α) (f : α → EdgeInput → EdgeRead β) : EdgeRead β :=
  match x with
  | .ok a c => f a c
  | .hold => .hold
  | .exhausted c => .exhausted c

/-- The skip loop from a cursor at `pos` and `level` with the edges `pending` ahead. -/
def skipLoop (inact : Level) (closed : Bool) : Sample → Level → List Sample → EdgeRead Unit
  | pos, level, [] =>
    let c : EdgeInput := { curPos := pos, curLevel := level, pending := [], closed := closed }
    if level = inact then (if closed then .exhausted c else .hold) else .ok () c
  | pos, level, t :: rest =>
    if level = inact then skipLoop inact closed t level.other rest
    else .ok () { curPos := pos, curLevel := level, pending := t :: rest, closed := closed }

/-- `while Level() == INACT: Advance()` (R403, R404 step 1). -/
def EdgeInput.skipInactive (c : EdgeInput) (inact : Level) : EdgeRead Unit :=
  skipLoop inact c.closed c.curPos c.curLevel c.pending

/-! ## Ends of a step -/

/-- `raise Exhausted`: the step commits `fsm <- DONE`, `stop_cause <- 2` and the edges already consumed, and emits nothing
(R212, R605; log entry 8). -/
def State.raiseExhausted (s : State) (c : EdgeInput) : State :=
  { s with edge := c, fsm := Fsm.done, stopCause := 2 }

/-- `raise TlmLogOverflow`: the step commits only `fault_code <- 1` and `fsm <- FAULT` (R613; log entry 9). -/
def State.raiseTlmLogOverflow (s : State) : State :=
  { s with fsm := Fsm.fault, faultCode := 1 }

/-- How an operation on state `s` ends, given what it computes with the edge input: it commits whole, or it holds and leaves
the state exactly as it was, or it is exhausted (R212; log entry 1). -/
def settle (s : State) (r : EdgeRead State) : Host.Outcome State Fault Refusal :=
  match r with
  | .ok s' c => .next { s' with edge := c }
  | .hold => .next s
  | .exhausted c => .next (s.raiseExhausted c)

/-! ## Output trace and attempts -/

/-- `Emit(e)` (R210). -/
def State.emit (s : State) (e : Event) : State :=
  { s with trace := s.trace ++ [e] }

/-- The end of a scan attempt: the frame, `COMMIT_PACKET`, `COMMIT_RESULTS`, `last_end <- p`, `fsm <- CHECKPOINT`
(R457, R551, R553, R555). -/
def State.closeAttempt (s : State) (frame : Event) (p : Sample) : State :=
  { ((s.emit frame).emit .commitPacket).emit .commitResults with lastEnd := p, fsm := Fsm.checkpoint }

/-- The start of a scan attempt, and the return from every recovered error: `word <- 0x0000`, `bit_idx <- 0`,
`fsm <- SCAN_BIT` (R403, R558, R606). -/
def State.startAttempt (s : State) : State :=
  { s with word := 0x0000, bitIdx := 0, fsm := Fsm.scanBit }

/-! ## Telemetry log (R205 to R207) -/

/-- `LogAppend(level, t)`: none when it raises `TlmLogOverflow`, the log holding `TLM_LOG_CAP` entries already (R206). -/
def State.logAppend (s : State) (e : LogEntry) : Option State :=
  match s.tlmLogCap with
  | some cap => if cap ≤ s.tlmLog.length then none else some { s with tlmLog := s.tlmLog ++ [e] }
  | none => some { s with tlmLog := s.tlmLog ++ [e] }

/-- `LogRead(j)` (R207). -/
def State.logRead (s : State) (j : Nat) : Option LogEntry := s.tlmLog[j]?

/-- The level that `LogRead(j)` gives: of entry `j`, or outside the log a free value (R207; log entry 14). -/
def State.logLevel (s : State) (j : Nat) : Level :=
  match s.logRead j with
  | some e => e.level
  | none => Config.unloggedLevel j

/-- The forward walk of the log's read cursor from entry `j`, over the entries after it: on to the next entry while
`40 * (t - tlm_start) <= limit` (R455, R456). -/
def walkLog (start : Sample) (limit : Nat) : Nat → List LogEntry → Nat
  | j, [] => j
  | j, e :: rest => if 40 * (e.t.toNat - start.toNat) ≤ limit then walkLog start limit (j + 1) rest else j

/-- `tlm_j` after TLM_SAMPLE's loop for sample `k` (R455). -/
def State.walkTo (s : State) (k : Nat) : Nat :=
  walkLog s.tlmStart (samplePoint40 k s.tlmDuration) s.tlmJ (s.tlmLog.drop (s.tlmJ + 1))

end Sys2Proof.Machine
end

