-- ==== Sys2Proof/Machine/BitClassifier.lean ====
section
/-! DEFINITION. Edge classification (40_bit_classifier.md): ALIGN and SCAN_BIT. -/

namespace Sys2Proof.Machine

/-- What ALIGN computes with the edge input (R403). -/
def State.align (s : State) : EdgeRead State :=
  (s.edge.skipInactive s.inact).bind fun _ c => .ok s.startAttempt c

/-- ALIGN: the initial alignment (R403). -/
def execAlign (s : State) : Host.Outcome State Fault Refusal := settle s s.align

/-- SCAN_BIT step 2: `rising <- r`, and `frame_start <- r` on the first bit (R404, R413). -/
def State.leadingEdge (s : State) (r : Sample) : State :=
  { s with rising := r, frameStart := if s.bitIdx = 0 then r else s.frameStart }

/-- SCAN_BIT step 3, the telemetry branch: capture opens at `r` with the level there as entry 0 (R404, R452). -/
def State.openCapture (s : State) (level : Level) (r : Sample) : State :=
  { s with
    tlmStart := r
    tlmLog := [{ level := level, t := r }]
    tlmK := 0
    tlmJ := 0
    tlmData := 0x00000
    fsm := Fsm.tlmRecord }

/-- SCAN_BIT step 6, the bit's error test for a pulse of width `w` that fell at `f`: short, or, when not short and not the last
bit, late. A short pulse makes no lookahead (R404, R602, D15). -/
def State.bitError (s : State) (w : Nat) (f : Sample) (c : EdgeInput) : EdgeRead Bool :=
  if isShort s.spb w then .ok true c
  else if s.bitIdx.toNat < 15 then c.peek.bind fun n c => .ok (isLate s.spb (n.toNat - f.toNat)) c
  else .ok false c

/-- The position of a command-bit marker, `r + floor(w / 2)` (R409). -/
def markerPos (r : Sample) (w : Nat) : Sample := BitVec.ofNat 64 (r.toNat + w / 2)

/-- SCAN_BIT steps 7 and 8: the bit's marker, then the abort, or the bit accumulated and the next iteration (R404, R411,
R603). -/
def State.closeBit (s : State) (r : Sample) (w : Nat) (err : Bool) : State :=
  let i := s.bitIdx.toNat
  let bit := isOne s.spb w
  let s := s.emit (.marker (markerClass err (15 - i) bit) (markerPos r w))
  if err then { s with fsm := Fsm.emitAbort }
  else if i = 15 then { s with word := setBit s.word (15 - i) bit, fsm := Fsm.emitCmd }
  else { s with word := setBit s.word (15 - i) bit, bitIdx := s.bitIdx + 1 }

/-- What SCAN_BIT computes with the edge input, in the source's step order (R404, R608). -/
def State.scanBit (s : State) : EdgeRead State :=
  (s.edge.skipInactive s.inact).bind fun _ c =>
    let r := c.curPos
    let edge := s.leadingEdge r
    if inTlmWindow s.sampleRate (r.toNat - s.lastEnd.toNat) then .ok (edge.openCapture c.curLevel r) c
    else c.advance.bind fun f c =>
      let w := f.toNat - r.toNat
      (edge.bitError w f c).bind fun err c => .ok (edge.closeBit r w err) c

/-- SCAN_BIT: read one command bit, or hand over to telemetry capture (R404). -/
def execScanBit (s : State) : Host.Outcome State Fault Refusal := settle s s.scanBit

end Sys2Proof.Machine
end

