-- ==== Sys2Proof/Machine/FrameAssembler.lean ====
section
/-! DEFINITION. Frame assembly and the top-level loop (43_frame_assembler.md): EMIT_CMD, EMIT_ABORT, CHECKPOINT, the states DONE
and FAULT that have no operation, and the reserved state codes. -/

namespace Sys2Proof.Machine

/-- The extra ERROR marker of a CRC mismatch, at the frame's end (R551, R604). -/
def State.crcMarker (s : State) (ok : Bool) (p : Sample) : State :=
  if ok then s else s.emit (.marker .error p)

/-- EMIT_CMD: CRC check and command frame emission after 16 good bits (R551). -/
def execEmitCmd (s : State) : Host.Outcome State Fault Refusal :=
  let p := s.edge.curPos
  let ok := crcOk s.word s.bidir
  .next ((s.crcMarker ok p).closeAttempt (.cmdFrame (commandFrame s.word ok s.frameStart p)) p)

/-- EMIT_ABORT: emit the errored partial frame after a bit-timing error, with no CRC check (R553, R554). -/
def execEmitAbort (s : State) : Host.Outcome State Fault Refusal :=
  let p := s.edge.curPos
  .next (s.closeAttempt (.cmdFrame (commandFrame s.word false s.frameStart p)) p)

/-- CHECKPOINT: the per-frame cancellation poll (R558). -/
def execCheckpoint (s : State) : Host.Outcome State Fault Refusal :=
  if s.cancelReq then .next { s with stopCause := 1, fsm := Fsm.done } else .next s.startAttempt

/-- DONE: no operation, the state stays until reset (R559; log entry 1). -/
def execDone (s : State) : Host.Outcome State Fault Refusal := .next s

/-- FAULT: no operation, the state stays until reset (R614; log entry 1). -/
def execFault (s : State) : Host.Outcome State Fault Refusal := .next s

/-- Reserved state code 1010 (R321, I10). -/
def execReservedFsm1010 (_ : State) : Host.Outcome State Fault Refusal := .fault (.reservedState 0b1010)

/-- Reserved state code 1011 (R321, I10). -/
def execReservedFsm1011 (_ : State) : Host.Outcome State Fault Refusal := .fault (.reservedState 0b1011)

/-- Reserved state code 1100 (R321, I10). -/
def execReservedFsm1100 (_ : State) : Host.Outcome State Fault Refusal := .fault (.reservedState 0b1100)

/-- Reserved state code 1101 (R321, I10). -/
def execReservedFsm1101 (_ : State) : Host.Outcome State Fault Refusal := .fault (.reservedState 0b1101)

/-- Reserved state code 1110 (R321, I10). -/
def execReservedFsm1110 (_ : State) : Host.Outcome State Fault Refusal := .fault (.reservedState 0b1110)

/-- Reserved state code 1111 (R321, I10). -/
def execReservedFsm1111 (_ : State) : Host.Outcome State Fault Refusal := .fault (.reservedState 0b1111)

end Sys2Proof.Machine
end

