-- ==== Sys2Proof/Machine/Records.lean ====
section
/-! DEFINITION. The event records and the marker classes as instructions of their own (30_encoding.md, sections 2): each is
emitted, that is, appended to the output trace (R210); the reserved codes are rejected by name. Log entries 5 to 7. -/

namespace Sys2Proof.Machine

/-- A record delivered to the event output: `Emit` (R210). -/
def emitRecord (e : Event) (s : State) : Host.Outcome State Fault Refusal := .next (s.emit e)

/-- MARKER (R311). -/
def execMarker (cls : MarkerClass) (sample : Sample) (s : State) : Host.Outcome State Fault Refusal :=
  emitRecord (.marker cls sample) s

/-- CMD_FRAME (R312). -/
def execCmdFrame (f : CmdFrame) (s : State) : Host.Outcome State Fault Refusal := emitRecord (.cmdFrame f) s

/-- TLM_FRAME (R313). -/
def execTlmFrame (f : TlmFrame) (s : State) : Host.Outcome State Fault Refusal := emitRecord (.tlmFrame f) s

/-- COMMIT_PACKET (R314). -/
def execCommitPacket (s : State) : Host.Outcome State Fault Refusal := emitRecord .commitPacket s

/-- COMMIT_RESULTS (R315). -/
def execCommitResults (s : State) : Host.Outcome State Fault Refusal := emitRecord .commitResults s

/-- Reserved event tag 101: "a consumer that meets one must reject the record" (R310). -/
def execReservedTag101 (_ : State) : Host.Outcome State Fault Refusal := .fault (.reservedTag 0b101)

/-- Reserved event tag 110 (R310). -/
def execReservedTag110 (_ : State) : Host.Outcome State Fault Refusal := .fault (.reservedTag 0b110)

/-- Reserved event tag 111 (R310). -/
def execReservedTag111 (_ : State) : Host.Outcome State Fault Refusal := .fault (.reservedTag 0b111)

/-- MARKER.ZERO: a marker of class ZERO (R316). -/
def execMarkerZero (sample : Sample) (s : State) : Host.Outcome State Fault Refusal := emitRecord (.marker .zero sample) s

/-- MARKER.ONE (R316). -/
def execMarkerOne (sample : Sample) (s : State) : Host.Outcome State Fault Refusal := emitRecord (.marker .one sample) s

/-- MARKER.START (R316). -/
def execMarkerStart (sample : Sample) (s : State) : Host.Outcome State Fault Refusal := emitRecord (.marker .start sample) s

/-- MARKER.STOP (R316). -/
def execMarkerStop (sample : Sample) (s : State) : Host.Outcome State Fault Refusal := emitRecord (.marker .stop sample) s

/-- MARKER.ERROR (R316). -/
def execMarkerError (sample : Sample) (s : State) : Host.Outcome State Fault Refusal := emitRecord (.marker .error sample) s

/-- Reserved marker class 101: never emitted (R316, I10). -/
def execMarkerReserved101 (_ : Sample) (_ : State) : Host.Outcome State Fault Refusal := .fault (.reservedClass 0b101)

/-- Reserved marker class 110 (R316, I10). -/
def execMarkerReserved110 (_ : Sample) (_ : State) : Host.Outcome State Fault Refusal := .fault (.reservedClass 0b110)

/-- Reserved marker class 111 (R316, I10). -/
def execMarkerReserved111 (_ : Sample) (_ : State) : Host.Outcome State Fault Refusal := .fault (.reservedClass 0b111)

end Sys2Proof.Machine
end

