-- ==== Sys2Proof/Machine/TelemetryCapture.lean ====
section
/-! DEFINITION. Telemetry sub-frame capture (41_telemetry_capture.md): TLM_RECORD, TLM_SAMPLE and EMIT_TLM. -/

namespace Sys2Proof.Machine

/-- The window test after an append: the closing edge becomes `tlm_end` (R453). -/
def State.testWindow (s : State) (t : Sample) : State :=
  if tlmExceeded s.sampleRate s.kbps (t.toNat - s.tlmStart.toNat) then { s with tlmEnd := t, fsm := Fsm.tlmSample } else s

/-- What TLM_RECORD computes with the edge input (R453). On overflow no edge is consumed (R613; log entry 9). -/
def State.tlmRecord (s : State) : EdgeRead State :=
  s.edge.advance.bind fun t c =>
    match s.logAppend { level := c.curLevel, t := t } with
    | none => .ok s.raiseTlmLogOverflow s.edge
    | some s' => .ok (s'.testWindow t) c

/-- TLM_RECORD: record one transition of the telemetry window (R453). -/
def execTlmRecord (s : State) : Host.Outcome State Fault Refusal := settle s s.tlmRecord

/-- The position of a telemetry marker, `tlm_start + floor((2k + 1) * D / 40)` (R454, R455). -/
def State.tlmMarkerPos (s : State) (k : Nat) : Sample :=
  BitVec.ofNat 64 (s.tlmStart.toNat + samplePoint40 k s.tlmDuration / 40)

/-- TLM_SAMPLE once its entry is read: the marker, the data bit, the next sample or EMIT_TLM (R455). A bit is 1 iff the level is
High, in both modes (D14). -/
def State.closeSample (s : State) (k j : Nat) (level : Level) : State :=
  let b := decide (level = .high)
  let s := { s.emit (.marker (if b then .one else .zero) (s.tlmMarkerPos k)) with
    tlmJ := j, tlmData := setBit s.tlmData (19 - k) b }
  if k = 19 then { s with fsm := Fsm.emitTlm } else { s with tlmK := s.tlmK + 1 }

/-- TLM_SAMPLE: sample one telemetry bit (R455). -/
def execTlmSample (s : State) : Host.Outcome State Fault Refusal :=
  let k := s.tlmK.toNat
  let j := s.walkTo k
  .next (s.closeSample k j (s.logLevel j))

/-- EMIT_TLM: emit the telemetry frame (R457). -/
def execEmitTlm (s : State) : Host.Outcome State Fault Refusal :=
  .next (s.closeAttempt (.tlmFrame { data := s.tlmData, start := s.tlmStart, stop := s.tlmEnd }) s.tlmEnd)

end Sys2Proof.Machine
end

