-- ==== Sys2Proof/Machine/Words.lean ====
section
/-! DEFINITION. The line words and the configuration control register as instructions of their own: each value goes to the
register that holds values of its format. Log entry 5. -/

namespace Sys2Proof.Machine

/-- CMD_WORD: `word` holds the 16 line bits, most significant first (R300, R411). -/
def execCmdWord (payload : BitVec 11) (tlmReq : BitVec 1) (crc : BitVec 4) (s : State) : Host.Outcome State Fault Refusal :=
  .next { s with word := payload ++ tlmReq ++ crc }

/-- TLM_WORD: `tlm_data` holds the 20 sampled bits, uninterpreted (R304). -/
def execTlmWord (data : BitVec 20) (s : State) : Host.Outcome State Fault Refusal :=
  .next { s with tlmData := data }

/-- CFG_CTRL: the write of configuration register #0 (R103, R106). -/
def execCfgCtrl (reserved : BitVec 29) (bidir : BitVec 1) (rate : BitVec 2) (s : State) : Host.Outcome State Fault Refusal :=
  .next (s.writeCfgCtrl (reserved ++ bidir ++ rate))

end Sys2Proof.Machine
end

