-- ==== Sys2Proof/Machine/Dispatch.lean ====
section
/-! DEFINITION. One arm per row of the opcode table, each one call of that row's meaning. -/

namespace Sys2Proof.Machine

def exec (i : Instr) (s : State) : Host.Outcome State Fault Refusal :=
  match i with
  | .align => Sys2Proof.Machine.execAlign s
  | .scanBit => Sys2Proof.Machine.execScanBit s
  | .tlmRecord => Sys2Proof.Machine.execTlmRecord s
  | .tlmSample => Sys2Proof.Machine.execTlmSample s
  | .emitTlm => Sys2Proof.Machine.execEmitTlm s
  | .emitCmd => Sys2Proof.Machine.execEmitCmd s
  | .emitAbort => Sys2Proof.Machine.execEmitAbort s
  | .checkpoint => Sys2Proof.Machine.execCheckpoint s
  | .done => Sys2Proof.Machine.execDone s
  | .fault => Sys2Proof.Machine.execFault s
  | .reservedFsm1010 => Sys2Proof.Machine.execReservedFsm1010 s
  | .reservedFsm1011 => Sys2Proof.Machine.execReservedFsm1011 s
  | .reservedFsm1100 => Sys2Proof.Machine.execReservedFsm1100 s
  | .reservedFsm1101 => Sys2Proof.Machine.execReservedFsm1101 s
  | .reservedFsm1110 => Sys2Proof.Machine.execReservedFsm1110 s
  | .reservedFsm1111 => Sys2Proof.Machine.execReservedFsm1111 s
  | .marker cls sample => Sys2Proof.Machine.execMarker cls sample s
  | .cmdFrame f => Sys2Proof.Machine.execCmdFrame f s
  | .tlmFrame f => Sys2Proof.Machine.execTlmFrame f s
  | .commitPacket => Sys2Proof.Machine.execCommitPacket s
  | .commitResults => Sys2Proof.Machine.execCommitResults s
  | .reservedTag101 => Sys2Proof.Machine.execReservedTag101 s
  | .reservedTag110 => Sys2Proof.Machine.execReservedTag110 s
  | .reservedTag111 => Sys2Proof.Machine.execReservedTag111 s
  | .markerZero sample => Sys2Proof.Machine.execMarkerZero sample s
  | .markerOne sample => Sys2Proof.Machine.execMarkerOne sample s
  | .markerStart sample => Sys2Proof.Machine.execMarkerStart sample s
  | .markerStop sample => Sys2Proof.Machine.execMarkerStop sample s
  | .markerError sample => Sys2Proof.Machine.execMarkerError sample s
  | .markerReserved101 sample => Sys2Proof.Machine.execMarkerReserved101 sample s
  | .markerReserved110 sample => Sys2Proof.Machine.execMarkerReserved110 sample s
  | .markerReserved111 sample => Sys2Proof.Machine.execMarkerReserved111 sample s
  | .cmdWord payload tlmReq crc => Sys2Proof.Machine.execCmdWord payload tlmReq crc s
  | .tlmWord data => Sys2Proof.Machine.execTlmWord data s
  | .cfgCtrl reserved bidir rate => Sys2Proof.Machine.execCfgCtrl reserved bidir rate s

end Sys2Proof.Machine
end

