-- ==== Sys2Proof/Machine/Environment.lean ====
section
/-! DEFINITION. What the other agents do to the machine (R11, R615): reset, configuration, the edge source, cancellation; and
where the decoder fetches its operation and a port its value. -/

namespace Sys2Proof.Machine

/-! ## Edge streams (R201) -/

/-- No timestamp of the list lies below the one before it, the first not below `from_`. -/
def nonDecreasing (from_ : Sample) : List Sample → Bool
  | [] => true
  | t :: rest => decide (from_ ≤ t) && nonDecreasing t rest

/-- The last timestamp the source has given, or the cursor's position: a further edge may not lie below it. -/
def EdgeInput.lastGiven (c : EdgeInput) : Sample := c.pending.getLast?.getD c.curPos

/-! ## Reset (R700, R701) -/

/-- Reset asserted: every register takes its reset value and the trace restarts empty. The edge source's state, the capacity
parameter and the schedule are not the block's (R700). -/
def State.assertReset (s : State) : State :=
  { State.reset with edge := s.edge, tlmLogCap := s.tlmLogCap, schedule := s.schedule }

/-- Reset released: the configuration is sampled, and a run with an illegal one is refused (R611, R701). Releasing a reset that
is not asserted does nothing. -/
def State.releaseReset (s : State) : Host.Outcome State Fault Refusal :=
  if s.inReset = true ∧ s.configLegal = false then .refused .configRefused
  else .next { s with inReset := false }

/-- A register write by number (R102). Read-only registers ignore it; there is no register above #5. The spec gives only the
registers' widths (R8, R102): that a wider value keeps its low bits, in every register, is the model's choice (log entry 11). -/
def State.writeReg (s : State) (n v : Nat) : Host.Outcome State Fault Refusal :=
  match n with
  | 0 => .next (s.writeCfgCtrl (BitVec.ofNat 32 v))
  | 1 => .next (s.writeCfgSampleRate (BitVec.ofNat 64 v))
  | 2 => .next (s.writeCfgLine v)
  | 3 => .next s
  | 4 => .next s
  | 5 => .next (s.writeCancel (BitVec.ofNat 32 v))
  | _ => .refused .moveNotOffered

/-- Attach an edge source at its start position and level (R702 step 5): only in reset, and only a well-formed stream (R612). -/
def State.attachStream (s : State) (c : EdgeInput) : Host.Outcome State Fault Refusal :=
  if s.inReset = false then .refused .moveNotOffered
  else if nonDecreasing c.curPos c.pending then .next { s with edge := c }
  else .refused .streamIllFormed

/-- The edge source appends one edge (R11): refused when it breaks R201, or when the stream is closed already (log entry 15). -/
def State.appendEdge (s : State) (t : Sample) : Host.Outcome State Fault Refusal :=
  if s.edge.closed = false ∧ s.edge.lastGiven ≤ t then
    .next { s with edge := { s.edge with pending := s.edge.pending ++ [t] } }
  else .refused .streamIllFormed

/-- One move of the host or of the edge source. The spec speaks of one `CANCEL@n` (I13): that a later one replaces the count of an
earlier one, and that one is taken in reset too, is the model's choice (log entry 16). -/
def EnvMove.apply (m : EnvMove) (s : State) : Host.Outcome State Fault Refusal :=
  match m with
  | .assertReset => .next s.assertReset
  | .releaseReset => s.releaseReset
  | .writeReg n v => s.writeReg n v
  | .cancel => .next s.setCancel
  | .cancelAt n => .next { s with cancelAt := some n }
  | .attach level pos edges closed =>
    s.attachStream { curPos := pos, curLevel := level, pending := edges, closed := closed }
  | .edge t => s.appendEdge t
  | .close => .next { s with edge := { s.edge with closed := true } }

/-! ## What runs next -/

/-- The operation is chosen by `fsm` alone (R322). -/
def State.fetch (s : State) : CodeWord := ⟨.fsm, s.fsm.toNat⟩

/-- The input `CANCEL@n` (R323, I13): the host's set lands before the `n`-th checkpoint, counted down at each one
(log entry 16). -/
def State.landCancel (s : State) : State :=
  if s.fsm = Fsm.checkpoint then
    match s.cancelAt with
    | some n => if n ≤ 1 then { s with cancelReq := true, cancelAt := none } else { s with cancelAt := some (n - 1) }
    | none => s
  else s

/-- The reserved register value that the state holds, where it holds one: `stop_cause` 3. No operation is defined in such a state
(R317, I10: stuck; log entry 7). A reserved state code is stopped by its own meaning, when the decoder
steps; that a value at a port still runs over one is the model's choice (log entry 5). -/
def State.stuckOn (s : State) : Option Fault :=
  if s.stopCause = 3 then some .reservedStopCause else none

/-- In reset the block emits no event and takes no step (R701): only a configuration value is taken there. -/
def State.portOpen (s : State) (c : CodeWord) : Bool := !s.inReset || c.space == .cfgCtrl

end Sys2Proof.Machine
end

