-- ==== Sys2Proof/Machine/Step.lean ====
section
/-! DEFINITION. One step of the machine: the schedule's next move, or the decoder's own step. -/

namespace Sys2Proof.Machine

/-- Run what a decoder answers; in a state that holds a reserved register value, stop (I10). -/
def runDecoded (d : Decoded) (s : State) : Host.Outcome State Fault Refusal :=
  match s.stuckOn with
  | some r => .fault r
  | none =>
    match d with
    | .ok i => exec i s
    | .rejected e => .refused (.undecodable e)

/-- The decoder's step: none while reset is asserted (R701), else the operation that `fsm` names (R322), after the host's cancel
has landed where the input `CANCEL@n` says so. -/
def blockStep (s : State) : Host.Outcome State Fault Refusal :=
  if s.inReset then .next s else runDecoded (decode s.fetch) s.landCancel

/-- One step: the move at the head of the schedule, or the decoder's own step when no move is scheduled. -/
def step (s : State) : Host.Outcome State Fault Refusal :=
  match s.schedule with
  | [] => blockStep s
  | .block :: rest => blockStep { s with schedule := rest }
  | .value c :: rest =>
    if s.portOpen c then runDecoded (decodePort c) { s with schedule := rest } else .next { s with schedule := rest }
  | .env m :: rest => m.apply { s with schedule := rest }

/-- `s` about to run the table word `w`: a state code stands in `fsm` with the reset released and the decoder's own step next;
any other value stands at its port as the schedule's next move, the reset released unless the value is a configuration. -/
def State.withFetchWord (s : State) (nbits w : Nat) : State :=
  match spaceOfWidth nbits with
  | some .fsm => { s with fsm := BitVec.ofNat 4 w, inReset := false, schedule := .block :: s.schedule }
  | some .cfgCtrl => { s with schedule := .value ⟨.cfgCtrl, w⟩ :: s.schedule }
  | some sp => { s with inReset := false, schedule := .value ⟨sp, w⟩ :: s.schedule }
  | none => s

end Sys2Proof.Machine
end

