-- ==== Sys2Proof/WellFormed.lean ====
section
/-! DEFINITION. Which encoded values the rules can produce: the checks on an `Instr` as syntax. -/

namespace Sys2Proof

/-- A `CMD_FRAME` record as the rules make it: `payload = raw[15:5]`, `tlm_req = raw[4]` (R550), `err = not crc_ok` on both
emission paths (R552). -/
def CmdFrame.consistent (f : CmdFrame) : Bool :=
  f.payload == f.raw.extractLsb' 5 11 && f.tlmReq == f.raw.getLsbD 4 && f.err == !f.crcOk

/-- The checks on an encoded value: a consistent `CMD_FRAME` (R550, R552), and `CFG_CTRL`'s reserved bits written 0 (R103). -/
def Instr.wellFormed : Instr → Bool
  | .align | .scanBit | .tlmRecord | .tlmSample | .emitTlm | .emitCmd | .emitAbort | .checkpoint | .done | .fault => true
  | .reservedFsm1010 | .reservedFsm1011 | .reservedFsm1100 | .reservedFsm1101 | .reservedFsm1110 | .reservedFsm1111 => true
  | .marker _ _ => true
  | .cmdFrame f => f.consistent
  | .tlmFrame _ => true
  | .commitPacket | .commitResults => true
  | .reservedTag101 | .reservedTag110 | .reservedTag111 => true
  | .markerZero _ | .markerOne _ | .markerStart _ | .markerStop _ | .markerError _ => true
  | .markerReserved101 _ | .markerReserved110 _ | .markerReserved111 _ => true
  | .cmdWord _ _ _ => true
  | .tlmWord _ => true
  | .cfgCtrl reserved _ _ => reserved == 0

end Sys2Proof
end

