-- ==== Sys2Proof/Safety.lean ====
section
/-! DEFINITION. What counts as a safe run, in the terms the statements use: the end of a run, what an operation waits for, and
the invariants that every state of a run meets. -/

namespace Sys2Proof.Machine

/-- The only final state of a run is DONE (R561). -/
def State.final (s : State) : Prop := s.fsm = Fsm.done

/-- Apply `f` to the next state of an outcome. -/
def mapNext (f : State → State) : Host.Outcome State Fault Refusal → Host.Outcome State Fault Refusal
  | .next s => .next (f s)
  | .fault r => .fault r
  | .refused r => .refused r

/-- Whether a read of the edge input waits for an edge. -/
def EdgeRead.isHold {α : Type} : EdgeRead α → Bool
  | .ok _ _ => false
  | .hold => true
  | .exhausted _ => false

/-- Whether operation `i` holds in state `s`: it needs an edge that an open stream has not supplied (R212). -/
def holds (i : Instr) (s : State) : Bool :=
  match i with
  | .align => s.align.isHold
  | .scanBit => s.scanBit.isHold
  | .tlmRecord => s.tlmRecord.isHold
  | _ => false

/-- `s` with the edges `ts` appended by the edge source. -/
def State.arrive (s : State) (ts : List Sample) : State :=
  { s with edge := { s.edge with pending := s.edge.pending ++ ts } }

/-- What is visible of an exhausted step from `s` to `t` that leaves the cursor at `c` (R212, R605): the run ends with no event.
The registers outside `STATUS` that I14 leaves unspecified are not named. -/
structure State.endsExhausted (s t : State) (c : EdgeInput) : Prop where
  fsm : t.fsm = Fsm.done
  stop_cause : t.stopCause = 2
  edge : t.edge = c
  trace : t.trace = s.trace
  bit_idx : t.bitIdx = s.bitIdx
  tlm_k : t.tlmK = s.tlmK

/-- A move that the spec gives an agent; a value at a port is the model's own (log entry 5). -/
def Move.ofSpec : Move → Bool
  | .block => true
  | .value _ => false
  | .env _ => true

/-- The schedule holds only moves of the spec's agents. -/
def State.specSchedule (s : State) : Prop := ∀ m ∈ s.schedule, m.ofSpec = true

/-! ## Invariants -/

/-- The registers a reset leaves alone aside, every register is at its reset value (R700, R701). -/
def State.atReset (s : State) : Prop :=
  s = { State.reset with
    cfgCtrl := s.cfgCtrl, cfgSampleRate := s.cfgSampleRate, cfgLine := s.cfgLine, edge := s.edge,
    tlmLogCap := s.tlmLogCap, cancelAt := s.cancelAt, schedule := s.schedule }

/-- The codes and the configuration are legal (R102 to R107, R111, R321, R601, R611). -/
structure State.CodesOk (s : State) : Prop where
  fsm_defined : s.fsm.toNat ≤ 9
  stop_iff_done : s.stopCause ≠ 0 ↔ s.fsm = Fsm.done
  stop_cause : s.stopCause.toNat ≤ 2
  fault_code : s.faultCode = if s.fsm = Fsm.fault then 1 else 0
  tlm_k : s.tlmK.toNat ≤ 19
  cfg_reserved : s.cfgCtrl.extractLsb' 3 29 = 0
  cfg_line : s.cfgLine < 2 ^ Config.lineIdWidth
  config_legal : s.inReset = false → s.configLegal = true
  reset_values : s.inReset = true → s.atReset

/-- The stream is well-formed (R201), and every position register lies at or before the cursor (R115, R116). -/
structure State.PositionsOk (s : State) : Prop where
  stream : nonDecreasing s.edge.curPos s.edge.pending = true
  last_end : s.lastEnd ≤ s.edge.curPos
  frame_start : s.frameStart ≤ s.edge.curPos
  rising : s.rising ≤ s.edge.curPos
  tlm_start : s.tlmStart ≤ s.edge.curPos
  tlm_end : s.tlmEnd ≤ s.edge.curPos

/-- The telemetry log of a capture: entry 0 is the active level at `tlm_start` (R205), and the timestamps rise, none after the
cursor. -/
def State.logOk (s : State) : Prop :=
  match s.tlmLog with
  | [] => False
  | e :: rest =>
    e = { level := s.act, t := s.tlmStart } ∧ nonDecreasing s.tlmStart (rest.map LogEntry.t) = true ∧
      ∀ x ∈ rest, x.t ≤ s.edge.curPos

/-- A telemetry capture in progress: while it records; while it samples, when the window has closed at its last entry and the
read cursor lies in the log, at or before the sample point; and until its frame is emitted (R207, R453 to R457). -/
structure State.CaptureOk (s : State) : Prop where
  record : s.fsm = Fsm.tlmRecord → s.logOk ∧ s.tlmK = 0 ∧ s.tlmJ = 0
  sample : s.fsm = Fsm.tlmSample → s.logOk ∧ tlmExceeded s.sampleRate s.kbps s.tlmDuration = true ∧
    s.tlmLog.getLast?.map LogEntry.t = some s.tlmEnd ∧
    ∃ e, s.logRead s.tlmJ = some e ∧ 40 * (e.t.toNat - s.tlmStart.toNat) ≤ samplePoint40 s.tlmK.toNat s.tlmDuration
  emit : s.fsm = Fsm.emitTlm → s.tlmStart < s.tlmEnd

/-- The bit positions of `word` that the scan has not reached hold 0, and so does an errored bit's (R114, R411). -/
def State.wordOk (s : State) : Prop :=
  s.fsm = Fsm.scanBit ∨ s.fsm = Fsm.emitAbort → ∀ j, j + s.bitIdx.toNat < 16 → s.word.getLsbD j = false

/-- Whether an event is a frame record (R555). -/
def isFrame : Event → Bool
  | .cmdFrame _ => true
  | .tlmFrame _ => true
  | .marker _ _ => false
  | .commitPacket => false
  | .commitResults => false

/-- Every command frame of the trace is consistent (R550, R552), and there are as many frames as packet commits and as result
commits (R564). -/
structure State.TraceOk (s : State) : Prop where
  frames_consistent : ∀ f, Event.cmdFrame f ∈ s.trace → f.consistent = true
  packets : s.trace.countP isFrame = s.trace.count .commitPacket
  results : s.trace.countP isFrame = s.trace.count .commitResults

/-- What every state of a run meets, from reset on, under a schedule of the spec's moves. -/
structure State.Inv (s : State) : Prop where
  schedule : s.specSchedule
  codes : s.CodesOk
  positions : s.PositionsOk
  capture : s.CaptureOk
  word : s.wordOk
  trace : s.TraceOk

end Sys2Proof.Machine
end

