-- ==== Sys2Proof/Certificates/Slice0/Obligations.lean ====
section
/-! DEFINITION. The statements for the provers, from the numbered rules of spec/. -/

open Sys2Proof Sys2Proof.Machine

/-! ## Encodings -/

/-- Words written out from the tables of 30_encoding.md and 95_test_vectors.md section 2.8 decode to what they stand for: a state
code, records, a marker class row (with its sample, 0: log entry 6), a command word, `CFG_CTRL` (R103); and a `MARKER` record with
a reserved class is rejected (the model's reading, log entry 20). -/
def Obligations.WrittenOutWordsDecode : Prop :=
  decode ⟨.fsm, 0b0001⟩ = .ok .scanBit ∧
  decode ⟨.fsm, 0b1001⟩ = .ok .fault ∧
  decode ⟨.event, 0x1f7c8⟩ = .ok (.marker .one 2015) ∧
  decode ⟨.event, 0x11d80000000000000fa120802081⟩ =
    .ok (.cmdFrame { payload := 0x410, raw := 0x8200, crcOk := false, tlmReq := false, err := true, start := 2000, stop := 2284 }) ∧
  decode ⟨.event, 0x81b000000000000068b2d1e4a⟩ = .ok (.tlmFrame { data := 0x5a3c9, start := 3350, stop := 4150 }) ∧
  decode ⟨.event, 0x3⟩ = .ok .commitPacket ∧
  decode ⟨.event, 0b101_000⟩ = .rejected .reservedClass ∧
  decode ⟨.cls, 0b011⟩ = .ok (.markerStop 0) ∧
  decode ⟨.cmdWord, 0xFFEE⟩ = .ok (.cmdWord 0x7FF 0 0xE) ∧
  decode ⟨.cfgCtrl, 0b1_10⟩ = .ok (.cfgCtrl 0 1 0b10)

/-- Decoding what the encoder writes gives the instruction back, for every instruction and every operand. -/
def Obligations.DecodeOfEncodeIsTheInstruction : Prop :=
  ∀ i : Instr, decode (encode i) = .ok i

/-- Whatever the decoder accepts is the word that the encoder writes: no two words of a space stand for one instruction. -/
def Obligations.EncodeOfDecodeIsTheWord : Prop :=
  ∀ (c : CodeWord) (i : Instr), decode c = .ok i → encode i = c

/-- R311 to R313: the fields of the three long records stand at the bits the rules name, and nothing stands above them; with
the codes of the marker classes. -/
def Obligations.RecordFieldsStandAtTheirBits : Prop :=
  (MarkerClass.zero.code = 0b000 ∧ MarkerClass.one.code = 0b001 ∧ MarkerClass.start.code = 0b010 ∧
    MarkerClass.stop.code = 0b011 ∧ MarkerClass.error.code = 0b100) ∧
  (∀ (c : MarkerClass) (sample : Sample), ∃ r : BitVec 70, r.toNat = (Event.marker c sample).encode ∧
    r.extractLsb' 0 3 = 0b000 ∧ r.extractLsb' 3 3 = c.code ∧ r.extractLsb' 6 64 = sample) ∧
  (∀ f : CmdFrame, ∃ r : BitVec 161, r.toNat = (Event.cmdFrame f).encode ∧
    r.extractLsb' 0 3 = 0b001 ∧ r.extractLsb' 3 11 = f.payload ∧ r.extractLsb' 14 16 = f.raw ∧ r.getLsbD 30 = f.crcOk ∧
    r.getLsbD 31 = f.tlmReq ∧ r.getLsbD 32 = f.err ∧ r.extractLsb' 33 64 = f.start ∧ r.extractLsb' 97 64 = f.stop) ∧
  (∀ f : TlmFrame, ∃ r : BitVec 151, r.toNat = (Event.tlmFrame f).encode ∧
    r.extractLsb' 0 3 = 0b010 ∧ r.extractLsb' 3 20 = f.data ∧ r.extractLsb' 23 64 = f.start ∧ r.extractLsb' 87 64 = f.stop)

/-! ## Pure functions -/

/-- R405, R406, R407: the three pulse tests with their default thresholds, and the marker's class (R408). -/
def Obligations.PulseTestsAndMarkerClass : Prop :=
  (∀ spb w, isOne spb w = true ↔ 2 * w > spb) ∧
  (∀ spb w, isShort spb w = true ↔ 5 * w < spb) ∧
  (∀ spb d, isLate spb d = true ↔ 2 * d > 3 * spb) ∧
  (∀ pos bit, markerClass true pos bit = .error) ∧
  (markerClass false 4 true = .start ∧ markerClass false 4 false = .stop) ∧
  (∀ pos, pos ≠ 4 → markerClass false pos true = .one ∧ markerClass false pos false = .zero)

/-- R450, R451: the gap window and the telemetry window limit in their default forms. -/
def Obligations.TelemetryWindowsAreExact : Prop :=
  (∀ sr gap, inTlmWindow sr gap = true ↔ 15 * sr < 1000000 * gap ∧ 1000000 * gap < 45 * sr) ∧
  (∀ sr kbps e, tlmExceeded sr kbps e = true ↔ 1250 * kbps * e > 24 * sr)

/-- R400, R401: `SPB` is `floor(SR / (K * 1000))` and at least 4 under a legal configuration; the polarity of each mode; `K` is
one of the four rates (R103). -/
def Obligations.DerivedConstants : Prop :=
  (∀ s : State, s.spb = s.cfgSampleRate.toNat / (1000 * s.kbps) ∧ (s.configLegal = true → 4 ≤ s.spb)) ∧
  (∀ s : State, s.bidir = false → s.act = .high ∧ s.inact = .low) ∧
  (∀ s : State, s.bidir = true → s.act = .low ∧ s.inact = .high) ∧
  (∀ s : State, s.cfgCtrl.toNat % 4 = 0 → s.kbps = 150) ∧ (∀ s : State, s.cfgCtrl.toNat % 4 = 1 → s.kbps = 300) ∧
  (∀ s : State, s.cfgCtrl.toNat % 4 = 2 → s.kbps = 600) ∧ (∀ s : State, s.cfgCtrl.toNat % 4 = 3 → s.kbps = 1200)

/-- R500, R501: the CRC nibble by shifts, independent of the transmitted nibble, and the verdict of each mode. -/
def Obligations.CrcNibbleAndVerdict : Prop :=
  (∀ w : BitVec 16, (crc4 w).setWidth 16 = ((w >>> 4) ^^^ (w >>> 8) ^^^ (w >>> 12)) &&& 0xF) ∧
  (∀ (hi : BitVec 12) (n m : BitVec 4), crc4 (hi ++ n) = crc4 (hi ++ m)) ∧
  (∀ w : BitVec 16, crcOk w false = true ↔ w &&& 0xF = (crc4 w).setWidth 16) ∧
  (∀ w : BitVec 16, crcOk w true = true ↔ ~~~w &&& 0xF = (crc4 w).setWidth 16)

/-- R502: the bidirectional verdict asks for the complement of the computed nibble, no word passes in both modes, and for every payload and flag exactly one nibble passes in each mode. -/
def Obligations.CrcModesExcludeEachOther : Prop :=
  (∀ w : BitVec 16, crcOk w true = true ↔ w.extractLsb' 0 4 = crc4 w ^^^ 0xF) ∧
  (∀ w : BitVec 16, ¬ (crcOk w false = true ∧ crcOk w true = true)) ∧
  (∀ (hi : BitVec 12) (bidir : Bool), ∃ n : BitVec 4, ∀ m : BitVec 4, crcOk (hi ++ m) bidir = true ↔ m = n)

/-! ## Fetch, reset and the host -/

/-- R322: with reset released, no move of another agent next, and a state code that decodes, a step runs exactly the decoded
operation, after the landing of a `CANCEL@n`; in a state that holds the reserved `stop_cause` 3 it stops by name (I10: stuck; that
the stop is a fault is the model's reading, log entry 7). The landing of `CANCEL@n` (R323, I13; the countdown is the model's, log
entry 16): at CHECKPOINT a count above 1 goes down by one, and at a lower count `cancel_req` is set; elsewhere, and without a
count, nothing changes. -/
def Obligations.StepRunsTheDecodedOperation : Prop :=
  (∀ (s : State) (i : Instr), s.inReset = false → s.schedule = [] → decode s.fetch = .ok i →
    (s.stopCause ≠ 3 → step s = exec i s.landCancel) ∧ (s.stopCause = 3 → step s = .fault .reservedStopCause)) ∧
  (∀ (s : State) (i : Instr) (rest : List Move), s.inReset = false → s.schedule = .block :: rest → decode s.fetch = .ok i →
    (s.stopCause ≠ 3 → step s = exec i { s with schedule := rest }.landCancel) ∧
    (s.stopCause = 3 → step s = .fault .reservedStopCause)) ∧
  (∀ s : State, (s.fsm ≠ Fsm.checkpoint ∨ s.cancelAt = none) → s.landCancel = s) ∧
  (∀ (s : State) (n : Nat), s.fsm = Fsm.checkpoint → s.cancelAt = some n →
    (n ≤ 1 → s.landCancel = { s with cancelReq := true, cancelAt := none }) ∧
    (1 < n → s.landCancel = { s with cancelAt := some (n - 1) }))

/-- A value at its port runs as the instruction it decodes to (the model's choice, log entry 5); in a state that holds the reserved
`stop_cause` 3 it stops by name (log entry 7). -/
def Obligations.StepRunsTheValueAtAPort : Prop :=
  ∀ (s : State) (c : CodeWord) (i : Instr) (rest : List Move), s.schedule = .value c :: rest → s.portOpen c = true →
    decodePort c = .ok i →
    (s.stopCause ≠ 3 → step s = exec i { s with schedule := rest }) ∧ (s.stopCause = 3 → step s = .fault .reservedStopCause)

/-- R700, R701: the reset values; asserting reset brings every register to them from any state, and leaves the edge source
alone (log entry 12). -/
def Obligations.ResetHoldsTheSpecValues : Prop :=
  (State.reset.cfgCtrl = 0 ∧ State.reset.cfgSampleRate = 0 ∧ State.reset.cfgLine = 0 ∧ State.reset.fsm = 0b0000 ∧
    State.reset.bitIdx = 0 ∧ State.reset.word = 0 ∧ State.reset.frameStart = 0 ∧ State.reset.rising = 0 ∧
    State.reset.lastEnd = 0 ∧ State.reset.tlmStart = 0 ∧ State.reset.tlmEnd = 0 ∧ State.reset.tlmLog = [] ∧
    State.reset.tlmK = 0 ∧ State.reset.tlmJ = 0 ∧ State.reset.tlmData = 0 ∧ State.reset.stopCause = 0 ∧
    State.reset.faultCode = 0 ∧ State.reset.cancelReq = false ∧ State.reset.trace = [] ∧ State.reset.status = 0 ∧
    State.reset.minSampleRate = 600000) ∧
  (∀ (s : State) (rest : List Move), s.schedule = .env .assertReset :: rest →
    ∃ t, step s = .next t ∧ t.inReset = true ∧ t.edge = s.edge ∧ t.schedule = rest ∧ t.atReset ∧
      t.cfgCtrl = 0 ∧ t.cfgSampleRate = 0 ∧ t.cfgLine = 0)

/-- R701: while reset is asserted the block takes no step. (A step not taken answers the same state, log entry 1.) -/
def Obligations.BlockTakesNoStepInReset : Prop :=
  (∀ s : State, s.inReset = true → s.schedule = [] → step s = .next s) ∧
  (∀ (s : State) (rest : List Move), s.inReset = true → s.schedule = .block :: rest →
    step s = .next { s with schedule := rest })

/-- R104, R611: reset release starts a run when `SR >= K * 4000`, and refuses any other; `K` is always one of the four rates. (The
rules admit no such run; that the refusal is one of the release is the model's reading, log entry 21.) -/
def Obligations.ReleaseStartsOnlyALegalRun : Prop :=
  (∀ s : State, s.kbps = 150 ∨ s.kbps = 300 ∨ s.kbps = 600 ∨ s.kbps = 1200) ∧
  ∀ (s : State) (rest : List Move), s.inReset = true → s.schedule = .env .releaseReset :: rest →
    (s.cfgSampleRate.toNat ≥ 4000 * s.kbps → step s = .next { s with inReset := false, schedule := rest }) ∧
    (s.cfgSampleRate.toNat < 4000 * s.kbps → step s = .refused .configRefused)

/-- R201, R612: a stream is attached in reset iff its timestamps never decrease from `P0` on; any other is refused (log entry
21). -/
def Obligations.OnlyWellFormedStreamsAreAttached : Prop :=
  ∀ (s : State) (rest : List Move) (l : Level) (p : Sample) (ts : List Sample) (cl : Bool), s.inReset = true →
    s.schedule = .env (.attach l p ts cl) :: rest →
    (List.Pairwise (· ≤ ·) (p :: ts) →
      step s = .next { s with edge := { curPos := p, curLevel := l, pending := ts, closed := cl }, schedule := rest }) ∧
    (¬ List.Pairwise (· ≤ ·) (p :: ts) → step s = .refused .streamIllFormed)

/-- R11, R201, R612: the edge source appends an edge to an open stream where it keeps the stream well-formed, and is refused
where the edge lies below the last one given (log entry 21); and it may close the stream. -/
def Obligations.EdgeSourceAppendsInOrder : Prop :=
  (∀ (s : State) (rest : List Move) (t : Sample), s.schedule = .env (.edge t) :: rest → s.edge.closed = false →
    (s.edge.lastGiven ≤ t → step s = .next ({ s with schedule := rest }.arrive [t])) ∧
    (¬ s.edge.lastGiven ≤ t → step s = .refused .streamIllFormed)) ∧
  (∀ (s : State) (rest : List Move), s.schedule = .env .close :: rest →
    step s = .next { s with edge := { s.edge with closed := true }, schedule := rest })

/-- R103 to R106, R109: register writes in reset load the configuration, with reserved bits ignored; in a run they are ignored;
`CANCEL` sets `cancel_req` in a run, by writing 1 to bit 0 only. (That a too wide `CFG_LINE` keeps its low bits is the model's
choice, log entry 11.) -/
def Obligations.HostWritesRegisters : Prop :=
  (∀ (s : State) (rest : List Move) (v : BitVec 32), s.schedule = .env (.writeReg 0 v.toNat) :: rest →
    step s = .next { s with cfgCtrl := if s.inReset then v &&& 7 else s.cfgCtrl, schedule := rest }) ∧
  (∀ (s : State) (rest : List Move) (v : BitVec 64), s.schedule = .env (.writeReg 1 v.toNat) :: rest →
    step s = .next { s with cfgSampleRate := if s.inReset then v else s.cfgSampleRate, schedule := rest }) ∧
  (∀ (s : State) (rest : List Move) (v : Nat), s.schedule = .env (.writeReg 2 v) :: rest →
    step s = .next { s with cfgLine := if s.inReset then v % 2 ^ Config.lineIdWidth else s.cfgLine, schedule := rest }) ∧
  (∀ (s : State) (rest : List Move) (v : BitVec 32), s.schedule = .env (.writeReg 5 v.toNat) :: rest →
    step s = .next { s with cancelReq := s.cancelReq || (!s.inReset && v.getLsbD 0), schedule := rest })

/-- R107, R108: what the host reads: `STATUS`'s fields and `MIN_SAMPLE_RATE`; a write of either does nothing. -/
def Obligations.HostReadsStatus : Prop :=
  (∀ s : State, s.readReg 3 = some s.status.toNat ∧ s.status.extractLsb' 0 4 = s.fsm ∧ s.status.extractLsb' 4 4 = s.bitIdx ∧
    s.status.extractLsb' 8 5 = s.tlmK ∧ s.status.extractLsb' 13 2 = s.stopCause ∧ s.status.extractLsb' 15 3 = s.faultCode ∧
    s.status.extractLsb' 18 14 = 0) ∧
  (∀ s : State, s.readReg 4 = some (4000 * s.kbps)) ∧
  (∀ (s : State) (rest : List Move) (n v : Nat), n = 3 ∨ n = 4 → s.schedule = .env (.writeReg n v) :: rest →
    step s = .next { s with schedule := rest })

/-! ## Edge input -/

/-- R202, R203: `Advance()` and `Peek()` with an edge pending, and without one on an open and on a closed stream; on a well-formed
stream the cursor's position never decreases. -/
def Obligations.AdvanceAndPeekReadTheNextEdge : Prop :=
  (∀ (c : EdgeInput) (t : Sample) (rest : List Sample), c.pending = t :: rest →
    c.advance = .ok t { c with curPos := t, curLevel := c.curLevel.other, pending := rest } ∧ c.peek = .ok t c) ∧
  (∀ c : EdgeInput, c.pending = [] → c.closed = false → c.advance = .hold ∧ c.peek = .hold) ∧
  (∀ c : EdgeInput, c.pending = [] → c.closed = true → c.advance = .exhausted c ∧ c.peek = .exhausted c) ∧
  (∀ (c c' : EdgeInput) (t : Sample), nonDecreasing c.curPos c.pending = true → c.advance = .ok t c' → c.curPos ≤ c'.curPos)

/-- R402: when the skip loop ends, the cursor is at the active level, and the loop has passed no edge or exactly one, the
transition to that level. -/
def Obligations.SkipPassesAtMostOneEdge : Prop :=
  ∀ (c c' : EdgeInput) (inact : Level), c.skipInactive inact = .ok () c' →
    c'.curLevel = inact.other ∧
    ((c.curLevel ≠ inact ∧ c' = c) ∨
     (c.curLevel = inact ∧ ∃ t rest, c.pending = t :: rest ∧
       c' = { c with curPos := t, curLevel := inact.other, pending := rest }))

/-- R212: an operation that needs an edge which an open stream has not supplied leaves the state exactly as it was. ALIGN and
SCAN_BIT wait in the skip, SCAN_BIT also for the falling edge and for the lookahead, TLM_RECORD for its transition. (A step not
taken answers the same state, log entry 1.) -/
def Obligations.MissingEdgeOnAnOpenStreamHolds : Prop :=
  (∀ s : State, s.edge.closed = false → s.edge.pending = [] → s.edge.curLevel = s.inact →
    exec .align s = .next s ∧ exec .scanBit s = .next s) ∧
  (∀ s : State, s.edge.closed = false → s.edge.pending = [] → exec .tlmRecord s = .next s) ∧
  (∀ (s : State) (c : EdgeInput), s.edge.closed = false → s.edge.skipInactive s.inact = .ok () c →
    inTlmWindow s.sampleRate (c.curPos.toNat - s.lastEnd.toNat) = false →
    (c.pending = [] → exec .scanBit s = .next s) ∧
    (∀ f, c.pending = [f] → isShort s.spb (f.toNat - c.curPos.toNat) = false → s.bitIdx.toNat < 15 →
      exec .scanBit s = .next s))

/-- R605: an operation that needs an edge which a closed stream does not have commits `stop_cause <- 2` and `fsm <- DONE` with
the edges already consumed, and emits nothing. (What it leaves in the registers that I14 names is not stated.) -/
def Obligations.MissingEdgeOnAClosedStreamEndsTheRun : Prop :=
  (∀ s : State, s.edge.closed = true → s.edge.pending = [] → s.edge.curLevel = s.inact →
    (∃ t, exec .align s = .next t ∧ s.endsExhausted t s.edge) ∧ (∃ t, exec .scanBit s = .next t ∧ s.endsExhausted t s.edge)) ∧
  (∀ s : State, s.edge.closed = true → s.edge.pending = [] →
    ∃ t, exec .tlmRecord s = .next t ∧ s.endsExhausted t s.edge) ∧
  (∀ (s : State) (c : EdgeInput), s.edge.closed = true → s.edge.skipInactive s.inact = .ok () c →
    inTlmWindow s.sampleRate (c.curPos.toNat - s.lastEnd.toNat) = false →
    (c.pending = [] → ∃ t, exec .scanBit s = .next t ∧ s.endsExhausted t c) ∧
    (∀ f, c.pending = [f] → isShort s.spb (f.toNat - c.curPos.toNat) = false → s.bitIdx.toNat < 15 →
      ∃ t, exec .scanBit s = .next t ∧
        s.endsExhausted t { c with curPos := f, curLevel := c.curLevel.other, pending := [] }))

/-! ## Edge classification -/

/-- R403: ALIGN passes the inactive level, if the cursor is there and an edge is pending, and starts the first attempt: `word` and
`bit_idx` are cleared and SCAN_BIT is next. Without the edge it holds on an open stream (log entry 1) and ends the run on a closed
one. -/
def Obligations.AlignStartsTheFirstAttempt : Prop :=
  (∀ s : State, s.edge.curLevel = s.act →
    exec .align s = .next { s with word := 0, bitIdx := 0, fsm := Fsm.scanBit }) ∧
  (∀ (s : State) (t : Sample) (rest : List Sample), s.edge.curLevel = s.inact → s.edge.pending = t :: rest →
    exec .align s = .next { s with
      edge := { s.edge with curPos := t, curLevel := s.act, pending := rest }, word := 0, bitIdx := 0, fsm := Fsm.scanBit }) ∧
  (∀ s : State, s.edge.curLevel = s.inact → s.edge.pending = [] → s.edge.closed = false → exec .align s = .next s) ∧
  (∀ s : State, s.edge.curLevel = s.inact → s.edge.pending = [] → s.edge.closed = true →
    ∃ t, exec .align s = .next t ∧ s.endsExhausted t s.edge)

/-- R404, R452: SCAN_BIT at a leading edge whose gap lies in the window opens telemetry capture there, at every bit index, in both
modes, with no event; and capture opens so only: from SCAN_BIT, at a gap in the window. The hypothesis on the skip says when it
ends (R402). -/
def Obligations.ScanBitOpensCaptureInTheWindow : Prop :=
  (∀ (i : Instr) (s t : State), exec i s = .next t → s.fsm ≠ Fsm.tlmRecord → t.fsm = Fsm.tlmRecord →
    i = .scanBit ∧ ∃ c, s.edge.skipInactive s.inact = .ok () c ∧
      inTlmWindow s.sampleRate (c.curPos.toNat - s.lastEnd.toNat) = true) ∧
  ∀ (s : State) (c : EdgeInput), s.edge.skipInactive s.inact = .ok () c →
    15 * s.sampleRate < 1000000 * (c.curPos.toNat - s.lastEnd.toNat) →
    1000000 * (c.curPos.toNat - s.lastEnd.toNat) < 45 * s.sampleRate →
    exec .scanBit s = .next { s with
      edge := c, rising := c.curPos, frameStart := if s.bitIdx = 0 then c.curPos else s.frameStart,
      tlmStart := c.curPos, tlmLog := [{ level := s.act, t := c.curPos }], tlmK := 0, tlmJ := 0, tlmData := 0,
      fsm := Fsm.tlmRecord }

/-- R404, R405, R408, R409, R411: a good bit. The gap lies outside the window, the pulse from `r` to `f` is not short, and, unless
it is the last bit, the next edge is not late: the marker is emitted at `r + floor(w / 2)`, the bit goes to `word[15 - i]`, and
the scan goes on, or to EMIT_CMD after bit 15. -/
def Obligations.ScanBitReadsAGoodBit : Prop :=
  ∀ (s : State) (c : EdgeInput) (f : Sample) (rest : List Sample) (i w : Nat) (bit : Bool),
    s.edge.skipInactive s.inact = .ok () c → c.pending = f :: rest → i = s.bitIdx.toNat → w = f.toNat - c.curPos.toNat →
    bit = decide (2 * w > s.spb) →
    ¬ (15 * s.sampleRate < 1000000 * (c.curPos.toNat - s.lastEnd.toNat) ∧
       1000000 * (c.curPos.toNat - s.lastEnd.toNat) < 45 * s.sampleRate) →
    ¬ 5 * w < s.spb →
    (i < 15 → ∃ n rest', rest = n :: rest' ∧ ¬ 2 * (n.toNat - f.toNat) > 3 * s.spb) →
    ∃ t, exec .scanBit s = .next t ∧
      t.trace = s.trace ++ [.marker (markerClass false (15 - i) bit) (BitVec.ofNat 64 (c.curPos.toNat + w / 2))] ∧
      (∀ j, t.word.getLsbD j = if j = 15 - i then bit else s.word.getLsbD j) ∧
      t.rising = c.curPos ∧ t.frameStart = (if i = 0 then c.curPos else s.frameStart) ∧
      t.edge = { c with curPos := f, curLevel := s.inact, pending := rest } ∧
      t.fsm = (if i = 15 then Fsm.emitCmd else s.fsm) ∧ t.bitIdx.toNat = (if i = 15 then 15 else i + 1)

/-- R404, R602, R603: an errored bit. The gap lies outside the window and the pulse is short, at any bit, or, before the last bit,
the next edge is late: the ERROR marker is emitted, `word` keeps the bits read so far, the cursor stays at the falling edge, and
EMIT_ABORT is next. A short pulse makes no lookahead. -/
def Obligations.ScanBitFlagsAnErroredBit : Prop :=
  ∀ (s : State) (c : EdgeInput) (f : Sample) (rest : List Sample) (i w : Nat),
    s.edge.skipInactive s.inact = .ok () c → c.pending = f :: rest → i = s.bitIdx.toNat → w = f.toNat - c.curPos.toNat →
    ¬ (15 * s.sampleRate < 1000000 * (c.curPos.toNat - s.lastEnd.toNat) ∧
       1000000 * (c.curPos.toNat - s.lastEnd.toNat) < 45 * s.sampleRate) →
    (5 * w < s.spb ∨ (i < 15 ∧ ∃ n rest', rest = n :: rest' ∧ 2 * (n.toNat - f.toNat) > 3 * s.spb)) →
    exec .scanBit s = .next { s with
      trace := s.trace ++ [.marker .error (BitVec.ofNat 64 (c.curPos.toNat + w / 2))],
      rising := c.curPos, frameStart := if s.bitIdx = 0 then c.curPos else s.frameStart,
      edge := { c with curPos := f, curLevel := s.inact, pending := rest },
      fsm := Fsm.emitAbort }

/-! ## Telemetry capture -/

/-- R206, R453: TLM_RECORD appends the next transition, with the level after it, where the log has room, and closes the window at
the first transition whose elapsed time exceeds `TLM_MAX`. -/
def Obligations.TlmRecordLogsOneTransition : Prop :=
  ∀ (s : State) (t : Sample) (rest : List Sample), s.edge.pending = t :: rest →
    (∀ cap, s.tlmLogCap = some cap → s.tlmLog.length < cap) →
    ∃ u, exec .tlmRecord s = .next u ∧
      u.tlmLog = s.tlmLog ++ [{ level := s.edge.curLevel.other, t := t }] ∧
      u.edge = { s.edge with curPos := t, curLevel := s.edge.curLevel.other, pending := rest } ∧ u.trace = s.trace ∧
      (1250 * s.kbps * (t.toNat - s.tlmStart.toNat) > 24 * s.sampleRate → u.tlmEnd = t ∧ u.fsm = Fsm.tlmSample) ∧
      (¬ 1250 * s.kbps * (t.toNat - s.tlmStart.toNat) > 24 * s.sampleRate → u.tlmEnd = s.tlmEnd ∧ u.fsm = s.fsm)

/-- R613: with a finite capacity and the log full, TLM_RECORD commits only `fault_code <- 1` and `fsm <- FAULT` (so the edge is not
consumed, log entry 9). -/
def Obligations.TlmRecordOverflowFaults : Prop :=
  ∀ (s : State) (t : Sample) (rest : List Sample) (cap : Nat), s.edge.pending = t :: rest → s.tlmLogCap = some cap →
    cap ≤ s.tlmLog.length → exec .tlmRecord s = .next { s with fsm := 0b1001, faultCode := 1 }

/-- R455, R458: TLM_SAMPLE(k): the ONE or ZERO marker at the floor of the sample point, the bit in `tlm_data[19 - k]`, 1 iff the
level of the log entry that the walk reaches is High, in both modes, and the next sample, or EMIT_TLM after sample 19. (Where the
walk reaches no entry, which R207 derives no run does, the level is a free value: log entry 14.) -/
def Obligations.TlmSampleReadsOneBit : Prop :=
  (∀ (s : State) (j : Nat) (e : LogEntry), s.tlmLog[j]? = some e → s.logLevel j = e.level) ∧
  ∀ (s : State) (k : Nat) (bit : Bool), k = s.tlmK.toNat → k ≤ 19 → bit = decide (s.logLevel (s.walkTo k) = .high) →
    ∃ t, exec .tlmSample s = .next t ∧
      t.trace = s.trace ++ [.marker (if bit then .one else .zero)
        (BitVec.ofNat 64 (s.tlmStart.toNat + (2 * k + 1) * (s.tlmEnd.toNat - s.tlmStart.toNat) / 40))] ∧
      (∀ j, t.tlmData.getLsbD j = if j = 19 - k then bit else s.tlmData.getLsbD j) ∧ t.tlmJ = s.walkTo k ∧
      t.fsm = (if k = 19 then Fsm.emitTlm else s.fsm) ∧ t.tlmK.toNat = (if k = 19 then 19 else k + 1)

/-- R456: on a log whose timestamps rise from `tlm_start`, from an entry at or before the sample point, the forward walk stops at
the largest index whose entry lies at or before the sample point, so that a tie goes to the later entry; the cursor never goes back;
and an entry at `tlm_start`, as entry 0 is, always lies at or before the sample point. -/
def Obligations.WalkFindsTheLargestInterval : Prop :=
  (∀ (s : State) (k : Nat) (e : LogEntry), e.t = s.tlmStart →
    40 * (e.t.toNat - s.tlmStart.toNat) ≤ (2 * k + 1) * (s.tlmEnd.toNat - s.tlmStart.toNat)) ∧
  (∀ (s : State) (k : Nat), s.tlmJ ≤ s.walkTo k) ∧
  ∀ (s : State) (k : Nat) (e : LogEntry),
    List.Pairwise (fun a b => a.t ≤ b.t) s.tlmLog → s.logRead s.tlmJ = some e →
    40 * (e.t.toNat - s.tlmStart.toNat) ≤ (2 * k + 1) * (s.tlmEnd.toNat - s.tlmStart.toNat) →
    ∃ x, s.logRead (s.walkTo k) = some x ∧
      40 * (x.t.toNat - s.tlmStart.toNat) ≤ (2 * k + 1) * (s.tlmEnd.toNat - s.tlmStart.toNat) ∧
      ∀ j y, s.logRead j = some y →
        40 * (y.t.toNat - s.tlmStart.toNat) ≤ (2 * k + 1) * (s.tlmEnd.toNat - s.tlmStart.toNat) → j ≤ s.walkTo k

/-- R454: every sample point lies in `[tlm_start, tlm_end)`, so its marker does, and the points rise with `k`. -/
def Obligations.SamplePointsLieInTheWindow : Prop :=
  ∀ (s : State) (k : Nat), s.tlmStart < s.tlmEnd → k ≤ 19 →
    s.tlmStart ≤ s.tlmMarkerPos k ∧ s.tlmMarkerPos k < s.tlmEnd ∧
    samplePoint40 k s.tlmDuration < 40 * s.tlmDuration ∧ samplePoint40 k s.tlmDuration < samplePoint40 (k + 1) s.tlmDuration

/-- R457: EMIT_TLM emits the telemetry frame and the two commit records, and sets `last_end <- tlm_end`. -/
def Obligations.EmitTlmEmitsTheFrame : Prop :=
  ∀ s : State, exec .emitTlm s = .next { s with
    trace := s.trace ++
      [.tlmFrame { data := s.tlmData, start := s.tlmStart, stop := s.tlmEnd }, .commitPacket, .commitResults],
    lastEnd := s.tlmEnd, fsm := Fsm.checkpoint }

/-! ## Frame assembly -/

/-- R550, R551, R604: EMIT_CMD emits the command frame with its CRC verdict, after an ERROR marker at the frame's end where the
verdict is false, then the two commit records, and sets `last_end`. -/
def Obligations.EmitCmdEmitsTheCheckedFrame : Prop :=
  ∀ s : State, exec .emitCmd s = .next { s with
    trace := s.trace ++ (if crcOk s.word s.bidir then [] else [.marker .error s.edge.curPos]) ++
      [.cmdFrame {
        payload := s.word.extractLsb' 5 11, raw := s.word, crcOk := crcOk s.word s.bidir, tlmReq := s.word.getLsbD 4,
        err := !crcOk s.word s.bidir, start := s.frameStart, stop := s.edge.curPos }, .commitPacket, .commitResults],
    lastEnd := s.edge.curPos, fsm := Fsm.checkpoint }

/-- R553, R554: EMIT_ABORT emits the partial frame with `crc_ok = 0` and `err = 1`, no extra marker, then the two commit records,
and sets `last_end`. -/
def Obligations.EmitAbortEmitsThePartialFrame : Prop :=
  ∀ s : State, exec .emitAbort s = .next { s with
    trace := s.trace ++
      [.cmdFrame {
        payload := s.word.extractLsb' 5 11, raw := s.word, crcOk := false, tlmReq := s.word.getLsbD 4, err := true,
        start := s.frameStart, stop := s.edge.curPos }, .commitPacket, .commitResults],
    lastEnd := s.edge.curPos, fsm := Fsm.checkpoint }

/-- R558: CHECKPOINT ends the run when the host has cancelled, and else starts the next attempt. -/
def Obligations.CheckpointPollsTheCancel : Prop :=
  (∀ s : State, s.cancelReq = true → exec .checkpoint s = .next { s with stopCause := 1, fsm := Fsm.done }) ∧
  (∀ s : State, s.cancelReq = false → exec .checkpoint s = .next { s with word := 0, bitIdx := 0, fsm := Fsm.scanBit })

/-- R559, R614: in DONE and in FAULT there is no operation and the state stays. (That a step which is not taken answers the same
state is the model's form, log entry 1.) -/
def Obligations.DoneAndFaultKeepTheState : Prop :=
  ∀ s : State, exec .done s = .next s ∧ exec .fault s = .next s

/-! ## Records, classes and words as instructions -/

/-- An event record, and a marker of each class, delivered to the event output is appended to the trace, which nothing else
changes (R210; that a record is an instruction of its own is the model's choice, log entries 5 and 6). -/
def Obligations.RecordsAreAppendedToTheTrace : Prop :=
  ∀ s : State,
    (∀ c sample, exec (.marker c sample) s = .next { s with trace := s.trace ++ [.marker c sample] }) ∧
    (∀ f, exec (.cmdFrame f) s = .next { s with trace := s.trace ++ [.cmdFrame f] }) ∧
    (∀ f, exec (.tlmFrame f) s = .next { s with trace := s.trace ++ [.tlmFrame f] }) ∧
    exec .commitPacket s = .next { s with trace := s.trace ++ [.commitPacket] } ∧
    exec .commitResults s = .next { s with trace := s.trace ++ [.commitResults] } ∧
    (∀ sample, exec (.markerZero sample) s = .next { s with trace := s.trace ++ [.marker .zero sample] }) ∧
    (∀ sample, exec (.markerOne sample) s = .next { s with trace := s.trace ++ [.marker .one sample] }) ∧
    (∀ sample, exec (.markerStart sample) s = .next { s with trace := s.trace ++ [.marker .start sample] }) ∧
    (∀ sample, exec (.markerStop sample) s = .next { s with trace := s.trace ++ [.marker .stop sample] }) ∧
    (∀ sample, exec (.markerError sample) s = .next { s with trace := s.trace ++ [.marker .error sample] })

/-- A command word lands in `word` with its fields where R300 puts them, and a telemetry word in `tlm_data` uninterpreted (R304);
nothing else changes. (That a word is an instruction of its own is the model's choice, log entry 5.) -/
def Obligations.LineWordsLandInTheirRegisters : Prop :=
  (∀ (s : State) (p : BitVec 11) (t : BitVec 1) (c : BitVec 4), ∃ u, exec (.cmdWord p t c) s = .next u ∧
    u = { s with word := u.word } ∧
    u.word.extractLsb' 5 11 = p ∧ u.word.extractLsb' 4 1 = t ∧ u.word.extractLsb' 0 4 = c) ∧
  (∀ (s : State) (d : BitVec 20), exec (.tlmWord d) s = .next { s with tlmData := d })

/-- R103, R106: a `CFG_CTRL` value is written in reset, its reserved bits ignored and reading 0, and ignored whole in a run;
nothing else changes. -/
def Obligations.CfgCtrlIsWrittenOnlyInReset : Prop :=
  (∀ (s : State) (z : BitVec 29) (b : BitVec 1) (r : BitVec 2), s.inReset = true → ∃ u, exec (.cfgCtrl z b r) s = .next u ∧
    u = { s with cfgCtrl := u.cfgCtrl } ∧
    u.cfgCtrl.extractLsb' 3 29 = 0 ∧ u.cfgCtrl.extractLsb' 2 1 = b ∧ u.cfgCtrl.extractLsb' 0 2 = r) ∧
  (∀ (s : State) (z : BitVec 29) (b : BitVec 1) (r : BitVec 2), s.inReset = false → exec (.cfgCtrl z b r) s = .next s)

/-- R321: the reserved state codes have no operation, so each stops by name (I10: stuck; that the stop is a fault is the model's
reading, log entry 7). -/
def Obligations.ReservedStateCodesStop : Prop :=
  ∀ s : State,
    exec .reservedFsm1010 s = .fault (.reservedState 0b1010) ∧ exec .reservedFsm1011 s = .fault (.reservedState 0b1011) ∧
    exec .reservedFsm1100 s = .fault (.reservedState 0b1100) ∧ exec .reservedFsm1101 s = .fault (.reservedState 0b1101) ∧
    exec .reservedFsm1110 s = .fault (.reservedState 0b1110) ∧ exec .reservedFsm1111 s = .fault (.reservedState 0b1111)

/-- The reserved event tags are rejected (R310) and so are the reserved marker classes (R316), each by name (I10: stuck;
that the stop is a fault is the model's reading, log entry 7). -/
def Obligations.ReservedTagsAndClassesStop : Prop :=
  ∀ s : State,
    exec .reservedTag101 s = .fault (.reservedTag 0b101) ∧ exec .reservedTag110 s = .fault (.reservedTag 0b110) ∧
    exec .reservedTag111 s = .fault (.reservedTag 0b111) ∧
    ∀ sample, exec (.markerReserved101 sample) s = .fault (.reservedClass 0b101) ∧
      exec (.markerReserved110 sample) s = .fault (.reservedClass 0b110) ∧
      exec (.markerReserved111 sample) s = .fault (.reservedClass 0b111)

/-! ## Frames -/

/-- What ALIGN and SCAN_BIT leave unchanged. ALIGN writes `word`, `bit_idx`, `fsm`, the cursor, and `stop_cause` when exhausted.
SCAN_BIT writes `rising` and, at bit 0, `frame_start`; with its telemetry branch the telemetry registers, no event and no bit;
without it at most one marker, `bit_idx`, and of `word` at most the bit `15 - i`. Neither writes `last_end`, `tlm_end`,
`cancel_req`, `fault_code` or the configuration. -/
def Obligations.AlignAndScanBitFrame : Prop :=
  (∀ s s' : State, exec .align s = .next s' →
    s' = { s with word := s'.word, bitIdx := s'.bitIdx, fsm := s'.fsm, stopCause := s'.stopCause, edge := s'.edge }) ∧
  (∀ s s' : State, exec .scanBit s = .next s' →
    (s.bitIdx ≠ 0 → s'.frameStart = s.frameStart) ∧
    (∀ j, j ≠ 15 - s.bitIdx.toNat → s'.word.getLsbD j = s.word.getLsbD j) ∧
    (∃ es, s'.trace = s.trace ++ es ∧ es.length ≤ 1) ∧
    ((s' = { s with
        rising := s'.rising, frameStart := s'.frameStart, tlmStart := s'.tlmStart, tlmLog := s'.tlmLog, tlmK := s'.tlmK,
        tlmJ := s'.tlmJ, tlmData := s'.tlmData, fsm := s'.fsm, edge := s'.edge }) ∨
     (s' = { s with
        rising := s'.rising, frameStart := s'.frameStart, word := s'.word, bitIdx := s'.bitIdx, stopCause := s'.stopCause,
        fsm := s'.fsm, edge := s'.edge, trace := s'.trace })))

/-- What the telemetry operations leave unchanged. TLM_RECORD writes the log, `tlm_end`, `fsm`, the cursor, and `stop_cause` or
`fault_code` where it ends the run; no entry of the log that stands is changed. TLM_SAMPLE writes `tlm_j`, `tlm_k`, `fsm`, one
marker, and of `tlm_data` only the bit `19 - k`. EMIT_TLM writes `last_end`, `fsm` and the trace. -/
def Obligations.TelemetryFrame : Prop :=
  (∀ s s' : State, exec .tlmRecord s = .next s' →
    s' = { s with tlmLog := s'.tlmLog, tlmEnd := s'.tlmEnd, fsm := s'.fsm, stopCause := s'.stopCause,
                  faultCode := s'.faultCode, edge := s'.edge } ∧
    ∀ j, j < s.tlmLog.length → s'.logRead j = s.logRead j) ∧
  (∀ s s' : State, exec .tlmSample s = .next s' →
    s' = { s with tlmJ := s'.tlmJ, tlmK := s'.tlmK, tlmData := s'.tlmData, fsm := s'.fsm, trace := s'.trace } ∧
    (∃ e, s'.trace = s.trace ++ [e]) ∧
    ∀ j, j ≠ 19 - s.tlmK.toNat → s'.tlmData.getLsbD j = s.tlmData.getLsbD j) ∧
  (∀ s s' : State, exec .emitTlm s = .next s' →
    s' = { s with lastEnd := s'.lastEnd, fsm := s'.fsm, trace := s'.trace } ∧ s.trace <+: s'.trace)

/-- What frame assembly leaves unchanged. EMIT_CMD and EMIT_ABORT write `last_end`, `fsm` and the trace; CHECKPOINT writes `fsm`
and either `stop_cause` or `word` and `bit_idx`; DONE and FAULT write nothing. -/
def Obligations.FrameAssemblyFrame : Prop :=
  (∀ s s' : State, exec .emitCmd s = .next s' ∨ exec .emitAbort s = .next s' →
    s' = { s with lastEnd := s'.lastEnd, fsm := s'.fsm, trace := s'.trace } ∧ s.trace <+: s'.trace) ∧
  (∀ s s' : State, exec .checkpoint s = .next s' →
    s' = { s with stopCause := s'.stopCause, fsm := s'.fsm } ∨
    s' = { s with word := s'.word, bitIdx := s'.bitIdx, fsm := s'.fsm }) ∧
  (∀ s s' : State, exec .done s = .next s' ∨ exec .fault s = .next s' → s' = s)

/-! ## Whole-machine rules -/

/-- R560: the transition table is the complete set of next states. With reset released and the decoder next, every step leads from
one row to its next state under the row's condition, or it is one of the steps that are not taken, a hold (R212), DONE or FAULT,
where the state stays (log entry 1). The premise on a capture in progress is an invariant (StepKeepsTheInvariant); from it `tlm_k`
is 0 where TLM_SAMPLE begins. A SCAN_BIT that reads a bit shows in its marker whether the bit is errored. -/
def Obligations.TransitionTableIsComplete : Prop :=
  ∀ (s s' : State) (rest : List Move), s.inReset = false → s.schedule = rest ∧ rest = [] ∨ s.schedule = .block :: rest →
    s.CaptureOk → step s = .next s' →
    (s' = { s with schedule := rest } ∧
      (holds (decodeFsm s.fsm) { s with schedule := rest } = true ∨ s.fsm = Fsm.done ∨ s.fsm = Fsm.fault)) ∨
    (s.fsm = Fsm.align ∧ s'.fsm = Fsm.scanBit ∧ s'.bitIdx = 0) ∨
    (s.fsm = Fsm.scanBit ∧
      ((s'.fsm = Fsm.tlmRecord ∧ ∃ c, s.edge.skipInactive s.inact = .ok () c ∧
          inTlmWindow s.sampleRate (c.curPos.toNat - s.lastEnd.toNat) = true) ∨
       (s'.fsm = Fsm.emitAbort ∧ ∃ p, s'.trace = s.trace ++ [.marker .error p]) ∨
       ((∃ k p, k ≠ .error ∧ s'.trace = s.trace ++ [.marker k p]) ∧
        ((s.bitIdx.toNat < 15 ∧ s'.fsm = Fsm.scanBit ∧ s'.bitIdx = s.bitIdx + 1) ∨
         (s.bitIdx.toNat = 15 ∧ s'.fsm = Fsm.emitCmd))))) ∨
    (s.fsm = Fsm.tlmRecord ∧
      ((s'.fsm = Fsm.tlmRecord ∧ tlmExceeded s.sampleRate s.kbps (s'.edge.curPos.toNat - s.tlmStart.toNat) = false) ∨
       (s'.fsm = Fsm.tlmSample ∧ s'.tlmK = 0 ∧
         tlmExceeded s.sampleRate s.kbps (s'.edge.curPos.toNat - s.tlmStart.toNat) = true) ∨
       (s'.fsm = Fsm.fault ∧ s'.faultCode = 1 ∧ ∃ cap, s.tlmLogCap = some cap ∧ cap ≤ s.tlmLog.length))) ∨
    (s.fsm = Fsm.tlmSample ∧
      ((s.tlmK ≠ 19 ∧ s'.fsm = Fsm.tlmSample ∧ s'.tlmK = s.tlmK + 1) ∨ (s.tlmK = 19 ∧ s'.fsm = Fsm.emitTlm))) ∨
    ((s.fsm = Fsm.emitTlm ∨ s.fsm = Fsm.emitCmd ∨ s.fsm = Fsm.emitAbort) ∧ s'.fsm = Fsm.checkpoint) ∨
    (s.fsm = Fsm.checkpoint ∧
      ((s'.cancelReq = true ∧ s'.fsm = Fsm.done ∧ s'.stopCause = 1) ∨
       (s'.cancelReq = false ∧ s'.fsm = Fsm.scanBit ∧ s'.bitIdx = 0))) ∨
    ((s.fsm = Fsm.align ∨ s.fsm = Fsm.scanBit ∨ s.fsm = Fsm.tlmRecord) ∧ s.edge.closed = true ∧
      s'.fsm = Fsm.done ∧ s'.stopCause = 2)

/-- R106: from reset release to the next reset no step changes the configuration. -/
def Obligations.ConfigurationIsFixedInARun : Prop :=
  ∀ s s' : State, s.inReset = false → step s = .next s' → s'.inReset = false →
    s'.cfgCtrl = s.cfgCtrl ∧ s'.cfgSampleRate = s.cfgSampleRate ∧ s'.cfgLine = s.cfgLine

/-- R115: `last_end` is written by the three EMIT operations only: to the cursor's position by EMIT_CMD and EMIT_ABORT, to
`tlm_end` by EMIT_TLM. -/
def Obligations.LastEndIsWrittenByEmissionsOnly : Prop :=
  ∀ s s' : State, step s = .next s' → s'.inReset = false → s'.lastEnd ≠ s.lastEnd →
    ((s.fsm = Fsm.emitCmd ∨ s.fsm = Fsm.emitAbort) ∧ s'.lastEnd = s.edge.curPos) ∨
    (s.fsm = Fsm.emitTlm ∧ s'.lastEnd = s.tlmEnd)

/-- R121, R210: outside reset the trace only grows: no event is withdrawn or changed; asserting reset empties it. -/
def Obligations.TraceOnlyGrows : Prop :=
  (∀ s s' : State, step s = .next s' → s'.inReset = false → s.trace <+: s'.trace) ∧
  (∀ (s : State) (rest : List Move), s.schedule = .env .assertReset :: rest → ∃ t, step s = .next t ∧ t.trace = [])

/-- R118, R559: `stop_cause` is written only with the entry into DONE, which comes from CHECKPOINT under a set `cancel_req`, with
1, or from an exhausted operation, with 2; `fault_code` only with the entry into FAULT; neither is cleared but by reset. Under a
schedule of the spec's moves DONE, once entered, stays without a further event or consumed edge until reset. -/
def Obligations.DoneStaysUntilReset : Prop :=
  (∀ s s' : State, step s = .next s' → s'.inReset = false →
    (s'.stopCause ≠ s.stopCause ∨ (s.fsm ≠ Fsm.done ∧ s'.fsm = Fsm.done)) →
    s'.fsm = 0b1000 ∧
      ((s'.stopCause = 1 ∧ s.fsm = Fsm.checkpoint ∧ s'.cancelReq = true) ∨
       (s'.stopCause = 2 ∧ s.edge.closed = true ∧ (s.fsm = Fsm.align ∨ s.fsm = Fsm.scanBit ∨ s.fsm = Fsm.tlmRecord)))) ∧
  (∀ s s' : State, step s = .next s' → s'.inReset = false → s'.faultCode ≠ s.faultCode →
    s'.fsm = Fsm.fault ∧ s'.faultCode = 1) ∧
  (∀ s s' : State, s.specSchedule → s.inReset = false → s.final → step s = .next s' → s'.inReset = false →
    s'.final ∧ s'.stopCause = s.stopCause ∧ s'.trace = s.trace ∧ s'.edge.curPos = s.edge.curPos ∧
      s.edge.pending <+: s'.edge.pending)

/-- R109: in a run, writing 1 to bit 0 of `CANCEL` sets `cancel_req`, writing 0 does nothing, and bit 0 reads it back; it is sticky:
once set, no step but a reset clears it; and only CHECKPOINT reads it: any other instruction does the same whether it is set or
not. -/
def Obligations.CancelIsStickyAndReadOnlyAtCheckpoint : Prop :=
  (∀ (s : State) (rest : List Move) (v : BitVec 32), s.inReset = false → s.schedule = .env (.writeReg 5 v.toNat) :: rest →
    step s = .next { s with cancelReq := s.cancelReq || v.getLsbD 0, schedule := rest }) ∧
  (∀ s : State, s.inReset = false → s.readReg 5 = some s.cancelReq.toNat) ∧
  (∀ s s' : State, step s = .next s' → s.cancelReq = true → s'.inReset = false → s'.cancelReq = true) ∧
  (∀ (i : Instr) (s : State) (q : Bool), i ≠ .checkpoint →
    exec i { s with cancelReq := q } = mapNext (fun t => { t with cancelReq := q }) (exec i s))

/-- R105: no decoding rule reads `CFG_LINE`: every instruction does the same whatever line is selected. -/
def Obligations.LineIsReadByNoRule : Prop :=
  ∀ (i : Instr) (s : State) (v : Nat), exec i { s with cfgLine := v } = mapNext (fun t => { t with cfgLine := v }) (exec i s)

/-- R202, R213: every instruction that completes leaves the stream's edges in order: it takes a first part of the pending edges,
at most two of them, and neither adds edges nor closes the stream; and it moves no sampled position backwards: on a well-formed
stream the cursor never decreases. -/
def Obligations.EdgesAreConsumedInOrder : Prop :=
  ∀ (i : Instr) (s s' : State), exec i s = .next s' →
    s'.edge.closed = s.edge.closed ∧ (∃ n, n ≤ 2 ∧ s'.edge.pending = s.edge.pending.drop n) ∧
    (nonDecreasing s.edge.curPos s.edge.pending = true →
      s.edge.curPos ≤ s'.edge.curPos ∧ nonDecreasing s'.edge.curPos s'.edge.pending = true)

/-- R212: the result of an operation depends on the state and the edge sequence, not on when edges arrive: on an open stream, an
instruction that does not hold does the same when more edges are pending. -/
def Obligations.ResultDoesNotDependOnArrival : Prop :=
  ∀ (i : Instr) (s : State) (ts : List Sample), s.edge.closed = false → holds i s = false →
    exec i (s.arrive ts) = mapNext (fun t => t.arrive ts) (exec i s)

/-! ## Invariants -/

/-- The reset state meets the invariant. -/
def Obligations.ResetMeetsTheInvariant : Prop := State.reset.Inv

/-- Every step from a state that meets the invariant gives one that does: the codes and the configuration legal (R317, R321,
R611), every position at or before the cursor (R115, R202), a capture's log and read cursor in order (R205, R207, R456), the
unscanned bits of `word` 0 (R411), every command frame consistent (R552), one frame to each pair of commits (R564). -/
def Obligations.StepKeepsTheInvariant : Prop :=
  ∀ s s' : State, s.Inv → step s = .next s' → s'.Inv

/-- R562: from a state whose codes are legal the decoder's step never stops: it answers a next state. (In DONE, in FAULT, at a hold
and in reset the spec takes no step; that the model's step answers the same state there is its choice, log entry 1.) -/
def Obligations.DecoderNeverStops : Prop :=
  ∀ s : State, s.CodesOk → s.schedule = [] → ∃ s', step s = .next s'

/-- With the default unbounded capacity FAULT is never entered (R206, R613). -/
def Obligations.UnboundedLogNeverFaults : Prop :=
  ∀ s s' : State, s.tlmLogCap = none → s.fsm ≠ Fsm.fault → step s = .next s' → s'.fsm ≠ Fsm.fault ∧ s'.tlmLogCap = none

/-! ## Cancellation -/

/-- R109, R123, R323, I13: the cancel strobe sets `cancel_req` in a run and does nothing in reset; the input `CANCEL@n` sets the
countdown, in place of a count still running (the model's field and choice, log entry 16); the first CHECKPOINT that finds the count at 1 (or 0) ends the run with `stop_cause`
1, one that finds it higher, with no other cancel, goes on to the next attempt with the count one lower, and no other step of the
decoder changes the count. -/
def Obligations.CancelLandsAtTheChosenCheckpoint : Prop :=
  (∀ (s : State) (rest : List Move), s.schedule = .env .cancel :: rest →
    step s = .next { s with cancelReq := s.cancelReq || !s.inReset, schedule := rest }) ∧
  (∀ (s : State) (rest : List Move) (n : Nat), s.schedule = .env (.cancelAt n) :: rest →
    step s = .next { s with cancelAt := some n, schedule := rest }) ∧
  (∀ (s : State) (n : Nat), s.inReset = false → s.schedule = [] → s.stopCause ≠ 3 → s.fsm = Fsm.checkpoint →
    s.cancelAt = some n →
    (n ≤ 1 → step s = .next { s with cancelReq := true, cancelAt := none, stopCause := 1, fsm := Fsm.done }) ∧
    (1 < n → s.cancelReq = false →
      step s = .next { s with cancelAt := some (n - 1), word := 0, bitIdx := 0, fsm := Fsm.scanBit })) ∧
  (∀ s s' : State, s.inReset = false → s.schedule = [] → s.fsm ≠ Fsm.checkpoint → step s = .next s' →
    s'.cancelAt = s.cancelAt)
end

