-- ==== Sys2Proof/Laws/State.lean ====
section
/-! SUPPORT. What each named update of the state does to each field: one lemma per field per update, true by rfl. -/

namespace Sys2Proof.Machine

/-! ### `emit` -/

section
variable (s : State) (e : Event)

@[simp] theorem State.emit_cfgCtrl : (s.emit e).cfgCtrl = s.cfgCtrl := rfl
@[simp] theorem State.emit_cfgSampleRate : (s.emit e).cfgSampleRate = s.cfgSampleRate := rfl
@[simp] theorem State.emit_cfgLine : (s.emit e).cfgLine = s.cfgLine := rfl
@[simp] theorem State.emit_fsm : (s.emit e).fsm = s.fsm := rfl
@[simp] theorem State.emit_bitIdx : (s.emit e).bitIdx = s.bitIdx := rfl
@[simp] theorem State.emit_word : (s.emit e).word = s.word := rfl
@[simp] theorem State.emit_frameStart : (s.emit e).frameStart = s.frameStart := rfl
@[simp] theorem State.emit_rising : (s.emit e).rising = s.rising := rfl
@[simp] theorem State.emit_lastEnd : (s.emit e).lastEnd = s.lastEnd := rfl
@[simp] theorem State.emit_tlmStart : (s.emit e).tlmStart = s.tlmStart := rfl
@[simp] theorem State.emit_tlmEnd : (s.emit e).tlmEnd = s.tlmEnd := rfl
@[simp] theorem State.emit_tlmLog : (s.emit e).tlmLog = s.tlmLog := rfl
@[simp] theorem State.emit_tlmK : (s.emit e).tlmK = s.tlmK := rfl
@[simp] theorem State.emit_tlmJ : (s.emit e).tlmJ = s.tlmJ := rfl
@[simp] theorem State.emit_tlmData : (s.emit e).tlmData = s.tlmData := rfl
@[simp] theorem State.emit_stopCause : (s.emit e).stopCause = s.stopCause := rfl
@[simp] theorem State.emit_faultCode : (s.emit e).faultCode = s.faultCode := rfl
@[simp] theorem State.emit_cancelReq : (s.emit e).cancelReq = s.cancelReq := rfl
@[simp] theorem State.emit_trace : (s.emit e).trace = s.trace ++ [e] := rfl
@[simp] theorem State.emit_edge : (s.emit e).edge = s.edge := rfl
@[simp] theorem State.emit_inReset : (s.emit e).inReset = s.inReset := rfl
@[simp] theorem State.emit_tlmLogCap : (s.emit e).tlmLogCap = s.tlmLogCap := rfl
@[simp] theorem State.emit_cancelAt : (s.emit e).cancelAt = s.cancelAt := rfl
@[simp] theorem State.emit_schedule : (s.emit e).schedule = s.schedule := rfl

end

/-! ### `startAttempt` -/

section
variable (s : State)

@[simp] theorem State.startAttempt_cfgCtrl : (s.startAttempt).cfgCtrl = s.cfgCtrl := rfl
@[simp] theorem State.startAttempt_cfgSampleRate : (s.startAttempt).cfgSampleRate = s.cfgSampleRate := rfl
@[simp] theorem State.startAttempt_cfgLine : (s.startAttempt).cfgLine = s.cfgLine := rfl
@[simp] theorem State.startAttempt_fsm : (s.startAttempt).fsm = Fsm.scanBit := rfl
@[simp] theorem State.startAttempt_bitIdx : (s.startAttempt).bitIdx = 0 := rfl
@[simp] theorem State.startAttempt_word : (s.startAttempt).word = 0 := rfl
@[simp] theorem State.startAttempt_frameStart : (s.startAttempt).frameStart = s.frameStart := rfl
@[simp] theorem State.startAttempt_rising : (s.startAttempt).rising = s.rising := rfl
@[simp] theorem State.startAttempt_lastEnd : (s.startAttempt).lastEnd = s.lastEnd := rfl
@[simp] theorem State.startAttempt_tlmStart : (s.startAttempt).tlmStart = s.tlmStart := rfl
@[simp] theorem State.startAttempt_tlmEnd : (s.startAttempt).tlmEnd = s.tlmEnd := rfl
@[simp] theorem State.startAttempt_tlmLog : (s.startAttempt).tlmLog = s.tlmLog := rfl
@[simp] theorem State.startAttempt_tlmK : (s.startAttempt).tlmK = s.tlmK := rfl
@[simp] theorem State.startAttempt_tlmJ : (s.startAttempt).tlmJ = s.tlmJ := rfl
@[simp] theorem State.startAttempt_tlmData : (s.startAttempt).tlmData = s.tlmData := rfl
@[simp] theorem State.startAttempt_stopCause : (s.startAttempt).stopCause = s.stopCause := rfl
@[simp] theorem State.startAttempt_faultCode : (s.startAttempt).faultCode = s.faultCode := rfl
@[simp] theorem State.startAttempt_cancelReq : (s.startAttempt).cancelReq = s.cancelReq := rfl
@[simp] theorem State.startAttempt_trace : (s.startAttempt).trace = s.trace := rfl
@[simp] theorem State.startAttempt_edge : (s.startAttempt).edge = s.edge := rfl
@[simp] theorem State.startAttempt_inReset : (s.startAttempt).inReset = s.inReset := rfl
@[simp] theorem State.startAttempt_tlmLogCap : (s.startAttempt).tlmLogCap = s.tlmLogCap := rfl
@[simp] theorem State.startAttempt_cancelAt : (s.startAttempt).cancelAt = s.cancelAt := rfl
@[simp] theorem State.startAttempt_schedule : (s.startAttempt).schedule = s.schedule := rfl

end

/-! ### `raiseExhausted` -/

section
variable (s : State) (c : EdgeInput)

@[simp] theorem State.raiseExhausted_cfgCtrl : (s.raiseExhausted c).cfgCtrl = s.cfgCtrl := rfl
@[simp] theorem State.raiseExhausted_cfgSampleRate : (s.raiseExhausted c).cfgSampleRate = s.cfgSampleRate := rfl
@[simp] theorem State.raiseExhausted_cfgLine : (s.raiseExhausted c).cfgLine = s.cfgLine := rfl
@[simp] theorem State.raiseExhausted_fsm : (s.raiseExhausted c).fsm = Fsm.done := rfl
@[simp] theorem State.raiseExhausted_bitIdx : (s.raiseExhausted c).bitIdx = s.bitIdx := rfl
@[simp] theorem State.raiseExhausted_word : (s.raiseExhausted c).word = s.word := rfl
@[simp] theorem State.raiseExhausted_frameStart : (s.raiseExhausted c).frameStart = s.frameStart := rfl
@[simp] theorem State.raiseExhausted_rising : (s.raiseExhausted c).rising = s.rising := rfl
@[simp] theorem State.raiseExhausted_lastEnd : (s.raiseExhausted c).lastEnd = s.lastEnd := rfl
@[simp] theorem State.raiseExhausted_tlmStart : (s.raiseExhausted c).tlmStart = s.tlmStart := rfl
@[simp] theorem State.raiseExhausted_tlmEnd : (s.raiseExhausted c).tlmEnd = s.tlmEnd := rfl
@[simp] theorem State.raiseExhausted_tlmLog : (s.raiseExhausted c).tlmLog = s.tlmLog := rfl
@[simp] theorem State.raiseExhausted_tlmK : (s.raiseExhausted c).tlmK = s.tlmK := rfl
@[simp] theorem State.raiseExhausted_tlmJ : (s.raiseExhausted c).tlmJ = s.tlmJ := rfl
@[simp] theorem State.raiseExhausted_tlmData : (s.raiseExhausted c).tlmData = s.tlmData := rfl
@[simp] theorem State.raiseExhausted_stopCause : (s.raiseExhausted c).stopCause = 2 := rfl
@[simp] theorem State.raiseExhausted_faultCode : (s.raiseExhausted c).faultCode = s.faultCode := rfl
@[simp] theorem State.raiseExhausted_cancelReq : (s.raiseExhausted c).cancelReq = s.cancelReq := rfl
@[simp] theorem State.raiseExhausted_trace : (s.raiseExhausted c).trace = s.trace := rfl
@[simp] theorem State.raiseExhausted_edge : (s.raiseExhausted c).edge = c := rfl
@[simp] theorem State.raiseExhausted_inReset : (s.raiseExhausted c).inReset = s.inReset := rfl
@[simp] theorem State.raiseExhausted_tlmLogCap : (s.raiseExhausted c).tlmLogCap = s.tlmLogCap := rfl
@[simp] theorem State.raiseExhausted_cancelAt : (s.raiseExhausted c).cancelAt = s.cancelAt := rfl
@[simp] theorem State.raiseExhausted_schedule : (s.raiseExhausted c).schedule = s.schedule := rfl

end

/-! ### `raiseTlmLogOverflow` -/

section
variable (s : State)

@[simp] theorem State.raiseTlmLogOverflow_cfgCtrl : (s.raiseTlmLogOverflow).cfgCtrl = s.cfgCtrl := rfl
@[simp] theorem State.raiseTlmLogOverflow_cfgSampleRate : (s.raiseTlmLogOverflow).cfgSampleRate = s.cfgSampleRate := rfl
@[simp] theorem State.raiseTlmLogOverflow_cfgLine : (s.raiseTlmLogOverflow).cfgLine = s.cfgLine := rfl
@[simp] theorem State.raiseTlmLogOverflow_fsm : (s.raiseTlmLogOverflow).fsm = Fsm.fault := rfl
@[simp] theorem State.raiseTlmLogOverflow_bitIdx : (s.raiseTlmLogOverflow).bitIdx = s.bitIdx := rfl
@[simp] theorem State.raiseTlmLogOverflow_word : (s.raiseTlmLogOverflow).word = s.word := rfl
@[simp] theorem State.raiseTlmLogOverflow_frameStart : (s.raiseTlmLogOverflow).frameStart = s.frameStart := rfl
@[simp] theorem State.raiseTlmLogOverflow_rising : (s.raiseTlmLogOverflow).rising = s.rising := rfl
@[simp] theorem State.raiseTlmLogOverflow_lastEnd : (s.raiseTlmLogOverflow).lastEnd = s.lastEnd := rfl
@[simp] theorem State.raiseTlmLogOverflow_tlmStart : (s.raiseTlmLogOverflow).tlmStart = s.tlmStart := rfl
@[simp] theorem State.raiseTlmLogOverflow_tlmEnd : (s.raiseTlmLogOverflow).tlmEnd = s.tlmEnd := rfl
@[simp] theorem State.raiseTlmLogOverflow_tlmLog : (s.raiseTlmLogOverflow).tlmLog = s.tlmLog := rfl
@[simp] theorem State.raiseTlmLogOverflow_tlmK : (s.raiseTlmLogOverflow).tlmK = s.tlmK := rfl
@[simp] theorem State.raiseTlmLogOverflow_tlmJ : (s.raiseTlmLogOverflow).tlmJ = s.tlmJ := rfl
@[simp] theorem State.raiseTlmLogOverflow_tlmData : (s.raiseTlmLogOverflow).tlmData = s.tlmData := rfl
@[simp] theorem State.raiseTlmLogOverflow_stopCause : (s.raiseTlmLogOverflow).stopCause = s.stopCause := rfl
@[simp] theorem State.raiseTlmLogOverflow_faultCode : (s.raiseTlmLogOverflow).faultCode = 1 := rfl
@[simp] theorem State.raiseTlmLogOverflow_cancelReq : (s.raiseTlmLogOverflow).cancelReq = s.cancelReq := rfl
@[simp] theorem State.raiseTlmLogOverflow_trace : (s.raiseTlmLogOverflow).trace = s.trace := rfl
@[simp] theorem State.raiseTlmLogOverflow_edge : (s.raiseTlmLogOverflow).edge = s.edge := rfl
@[simp] theorem State.raiseTlmLogOverflow_inReset : (s.raiseTlmLogOverflow).inReset = s.inReset := rfl
@[simp] theorem State.raiseTlmLogOverflow_tlmLogCap : (s.raiseTlmLogOverflow).tlmLogCap = s.tlmLogCap := rfl
@[simp] theorem State.raiseTlmLogOverflow_cancelAt : (s.raiseTlmLogOverflow).cancelAt = s.cancelAt := rfl
@[simp] theorem State.raiseTlmLogOverflow_schedule : (s.raiseTlmLogOverflow).schedule = s.schedule := rfl

end

/-! ### `closeAttempt` -/

section
variable (s : State) (f : Event) (p : Sample)

@[simp] theorem State.closeAttempt_cfgCtrl : (s.closeAttempt f p).cfgCtrl = s.cfgCtrl := rfl
@[simp] theorem State.closeAttempt_cfgSampleRate : (s.closeAttempt f p).cfgSampleRate = s.cfgSampleRate := rfl
@[simp] theorem State.closeAttempt_cfgLine : (s.closeAttempt f p).cfgLine = s.cfgLine := rfl
@[simp] theorem State.closeAttempt_fsm : (s.closeAttempt f p).fsm = Fsm.checkpoint := rfl
@[simp] theorem State.closeAttempt_bitIdx : (s.closeAttempt f p).bitIdx = s.bitIdx := rfl
@[simp] theorem State.closeAttempt_word : (s.closeAttempt f p).word = s.word := rfl
@[simp] theorem State.closeAttempt_frameStart : (s.closeAttempt f p).frameStart = s.frameStart := rfl
@[simp] theorem State.closeAttempt_rising : (s.closeAttempt f p).rising = s.rising := rfl
@[simp] theorem State.closeAttempt_lastEnd : (s.closeAttempt f p).lastEnd = p := rfl
@[simp] theorem State.closeAttempt_tlmStart : (s.closeAttempt f p).tlmStart = s.tlmStart := rfl
@[simp] theorem State.closeAttempt_tlmEnd : (s.closeAttempt f p).tlmEnd = s.tlmEnd := rfl
@[simp] theorem State.closeAttempt_tlmLog : (s.closeAttempt f p).tlmLog = s.tlmLog := rfl
@[simp] theorem State.closeAttempt_tlmK : (s.closeAttempt f p).tlmK = s.tlmK := rfl
@[simp] theorem State.closeAttempt_tlmJ : (s.closeAttempt f p).tlmJ = s.tlmJ := rfl
@[simp] theorem State.closeAttempt_tlmData : (s.closeAttempt f p).tlmData = s.tlmData := rfl
@[simp] theorem State.closeAttempt_stopCause : (s.closeAttempt f p).stopCause = s.stopCause := rfl
@[simp] theorem State.closeAttempt_faultCode : (s.closeAttempt f p).faultCode = s.faultCode := rfl
@[simp] theorem State.closeAttempt_cancelReq : (s.closeAttempt f p).cancelReq = s.cancelReq := rfl
@[simp] theorem State.closeAttempt_trace : (s.closeAttempt f p).trace = s.trace ++ [f] ++ [.commitPacket] ++ [.commitResults] := rfl
@[simp] theorem State.closeAttempt_edge : (s.closeAttempt f p).edge = s.edge := rfl
@[simp] theorem State.closeAttempt_inReset : (s.closeAttempt f p).inReset = s.inReset := rfl
@[simp] theorem State.closeAttempt_tlmLogCap : (s.closeAttempt f p).tlmLogCap = s.tlmLogCap := rfl
@[simp] theorem State.closeAttempt_cancelAt : (s.closeAttempt f p).cancelAt = s.cancelAt := rfl
@[simp] theorem State.closeAttempt_schedule : (s.closeAttempt f p).schedule = s.schedule := rfl

end

/-! ### `leadingEdge` -/

section
variable (s : State) (r : Sample)

@[simp] theorem State.leadingEdge_cfgCtrl : (s.leadingEdge r).cfgCtrl = s.cfgCtrl := rfl
@[simp] theorem State.leadingEdge_cfgSampleRate : (s.leadingEdge r).cfgSampleRate = s.cfgSampleRate := rfl
@[simp] theorem State.leadingEdge_cfgLine : (s.leadingEdge r).cfgLine = s.cfgLine := rfl
@[simp] theorem State.leadingEdge_fsm : (s.leadingEdge r).fsm = s.fsm := rfl
@[simp] theorem State.leadingEdge_bitIdx : (s.leadingEdge r).bitIdx = s.bitIdx := rfl
@[simp] theorem State.leadingEdge_word : (s.leadingEdge r).word = s.word := rfl
@[simp] theorem State.leadingEdge_frameStart : (s.leadingEdge r).frameStart = if s.bitIdx = 0 then r else s.frameStart := rfl
@[simp] theorem State.leadingEdge_rising : (s.leadingEdge r).rising = r := rfl
@[simp] theorem State.leadingEdge_lastEnd : (s.leadingEdge r).lastEnd = s.lastEnd := rfl
@[simp] theorem State.leadingEdge_tlmStart : (s.leadingEdge r).tlmStart = s.tlmStart := rfl
@[simp] theorem State.leadingEdge_tlmEnd : (s.leadingEdge r).tlmEnd = s.tlmEnd := rfl
@[simp] theorem State.leadingEdge_tlmLog : (s.leadingEdge r).tlmLog = s.tlmLog := rfl
@[simp] theorem State.leadingEdge_tlmK : (s.leadingEdge r).tlmK = s.tlmK := rfl
@[simp] theorem State.leadingEdge_tlmJ : (s.leadingEdge r).tlmJ = s.tlmJ := rfl
@[simp] theorem State.leadingEdge_tlmData : (s.leadingEdge r).tlmData = s.tlmData := rfl
@[simp] theorem State.leadingEdge_stopCause : (s.leadingEdge r).stopCause = s.stopCause := rfl
@[simp] theorem State.leadingEdge_faultCode : (s.leadingEdge r).faultCode = s.faultCode := rfl
@[simp] theorem State.leadingEdge_cancelReq : (s.leadingEdge r).cancelReq = s.cancelReq := rfl
@[simp] theorem State.leadingEdge_trace : (s.leadingEdge r).trace = s.trace := rfl
@[simp] theorem State.leadingEdge_edge : (s.leadingEdge r).edge = s.edge := rfl
@[simp] theorem State.leadingEdge_inReset : (s.leadingEdge r).inReset = s.inReset := rfl
@[simp] theorem State.leadingEdge_tlmLogCap : (s.leadingEdge r).tlmLogCap = s.tlmLogCap := rfl
@[simp] theorem State.leadingEdge_cancelAt : (s.leadingEdge r).cancelAt = s.cancelAt := rfl
@[simp] theorem State.leadingEdge_schedule : (s.leadingEdge r).schedule = s.schedule := rfl

end

/-! ### `openCapture` -/

section
variable (s : State) (l : Level) (r : Sample)

@[simp] theorem State.openCapture_cfgCtrl : (s.openCapture l r).cfgCtrl = s.cfgCtrl := rfl
@[simp] theorem State.openCapture_cfgSampleRate : (s.openCapture l r).cfgSampleRate = s.cfgSampleRate := rfl
@[simp] theorem State.openCapture_cfgLine : (s.openCapture l r).cfgLine = s.cfgLine := rfl
@[simp] theorem State.openCapture_fsm : (s.openCapture l r).fsm = Fsm.tlmRecord := rfl
@[simp] theorem State.openCapture_bitIdx : (s.openCapture l r).bitIdx = s.bitIdx := rfl
@[simp] theorem State.openCapture_word : (s.openCapture l r).word = s.word := rfl
@[simp] theorem State.openCapture_frameStart : (s.openCapture l r).frameStart = s.frameStart := rfl
@[simp] theorem State.openCapture_rising : (s.openCapture l r).rising = s.rising := rfl
@[simp] theorem State.openCapture_lastEnd : (s.openCapture l r).lastEnd = s.lastEnd := rfl
@[simp] theorem State.openCapture_tlmStart : (s.openCapture l r).tlmStart = r := rfl
@[simp] theorem State.openCapture_tlmEnd : (s.openCapture l r).tlmEnd = s.tlmEnd := rfl
@[simp] theorem State.openCapture_tlmLog : (s.openCapture l r).tlmLog = [⟨l, r⟩] := rfl
@[simp] theorem State.openCapture_tlmK : (s.openCapture l r).tlmK = 0 := rfl
@[simp] theorem State.openCapture_tlmJ : (s.openCapture l r).tlmJ = 0 := rfl
@[simp] theorem State.openCapture_tlmData : (s.openCapture l r).tlmData = 0 := rfl
@[simp] theorem State.openCapture_stopCause : (s.openCapture l r).stopCause = s.stopCause := rfl
@[simp] theorem State.openCapture_faultCode : (s.openCapture l r).faultCode = s.faultCode := rfl
@[simp] theorem State.openCapture_cancelReq : (s.openCapture l r).cancelReq = s.cancelReq := rfl
@[simp] theorem State.openCapture_trace : (s.openCapture l r).trace = s.trace := rfl
@[simp] theorem State.openCapture_edge : (s.openCapture l r).edge = s.edge := rfl
@[simp] theorem State.openCapture_inReset : (s.openCapture l r).inReset = s.inReset := rfl
@[simp] theorem State.openCapture_tlmLogCap : (s.openCapture l r).tlmLogCap = s.tlmLogCap := rfl
@[simp] theorem State.openCapture_cancelAt : (s.openCapture l r).cancelAt = s.cancelAt := rfl
@[simp] theorem State.openCapture_schedule : (s.openCapture l r).schedule = s.schedule := rfl

end

/-! ### `arrive` -/

section
variable (s : State) (ts : List Sample)

@[simp] theorem State.arrive_cfgCtrl : (s.arrive ts).cfgCtrl = s.cfgCtrl := rfl
@[simp] theorem State.arrive_cfgSampleRate : (s.arrive ts).cfgSampleRate = s.cfgSampleRate := rfl
@[simp] theorem State.arrive_cfgLine : (s.arrive ts).cfgLine = s.cfgLine := rfl
@[simp] theorem State.arrive_fsm : (s.arrive ts).fsm = s.fsm := rfl
@[simp] theorem State.arrive_bitIdx : (s.arrive ts).bitIdx = s.bitIdx := rfl
@[simp] theorem State.arrive_word : (s.arrive ts).word = s.word := rfl
@[simp] theorem State.arrive_frameStart : (s.arrive ts).frameStart = s.frameStart := rfl
@[simp] theorem State.arrive_rising : (s.arrive ts).rising = s.rising := rfl
@[simp] theorem State.arrive_lastEnd : (s.arrive ts).lastEnd = s.lastEnd := rfl
@[simp] theorem State.arrive_tlmStart : (s.arrive ts).tlmStart = s.tlmStart := rfl
@[simp] theorem State.arrive_tlmEnd : (s.arrive ts).tlmEnd = s.tlmEnd := rfl
@[simp] theorem State.arrive_tlmLog : (s.arrive ts).tlmLog = s.tlmLog := rfl
@[simp] theorem State.arrive_tlmK : (s.arrive ts).tlmK = s.tlmK := rfl
@[simp] theorem State.arrive_tlmJ : (s.arrive ts).tlmJ = s.tlmJ := rfl
@[simp] theorem State.arrive_tlmData : (s.arrive ts).tlmData = s.tlmData := rfl
@[simp] theorem State.arrive_stopCause : (s.arrive ts).stopCause = s.stopCause := rfl
@[simp] theorem State.arrive_faultCode : (s.arrive ts).faultCode = s.faultCode := rfl
@[simp] theorem State.arrive_cancelReq : (s.arrive ts).cancelReq = s.cancelReq := rfl
@[simp] theorem State.arrive_trace : (s.arrive ts).trace = s.trace := rfl
@[simp] theorem State.arrive_edge : (s.arrive ts).edge = { s.edge with pending := s.edge.pending ++ ts } := rfl
@[simp] theorem State.arrive_inReset : (s.arrive ts).inReset = s.inReset := rfl
@[simp] theorem State.arrive_tlmLogCap : (s.arrive ts).tlmLogCap = s.tlmLogCap := rfl
@[simp] theorem State.arrive_cancelAt : (s.arrive ts).cancelAt = s.cancelAt := rfl
@[simp] theorem State.arrive_schedule : (s.arrive ts).schedule = s.schedule := rfl

end

/-! ### The derived constants are functions of the configuration, which no update writes (R110) -/

section
variable (s : State) (e : Event)

@[simp] theorem State.emit_sampleRate : (s.emit e).sampleRate = s.sampleRate := rfl
@[simp] theorem State.emit_kbps : (s.emit e).kbps = s.kbps := rfl
@[simp] theorem State.emit_bidir : (s.emit e).bidir = s.bidir := rfl
@[simp] theorem State.emit_spb : (s.emit e).spb = s.spb := rfl
@[simp] theorem State.emit_act : (s.emit e).act = s.act := rfl
@[simp] theorem State.emit_inact : (s.emit e).inact = s.inact := rfl
@[simp] theorem State.emit_configLegal : (s.emit e).configLegal = s.configLegal := rfl

end

section
variable (s : State)

@[simp] theorem State.startAttempt_sampleRate : (s.startAttempt).sampleRate = s.sampleRate := rfl
@[simp] theorem State.startAttempt_kbps : (s.startAttempt).kbps = s.kbps := rfl
@[simp] theorem State.startAttempt_bidir : (s.startAttempt).bidir = s.bidir := rfl
@[simp] theorem State.startAttempt_spb : (s.startAttempt).spb = s.spb := rfl
@[simp] theorem State.startAttempt_act : (s.startAttempt).act = s.act := rfl
@[simp] theorem State.startAttempt_inact : (s.startAttempt).inact = s.inact := rfl
@[simp] theorem State.startAttempt_configLegal : (s.startAttempt).configLegal = s.configLegal := rfl

end

section
variable (s : State) (c : EdgeInput)

@[simp] theorem State.raiseExhausted_sampleRate : (s.raiseExhausted c).sampleRate = s.sampleRate := rfl
@[simp] theorem State.raiseExhausted_kbps : (s.raiseExhausted c).kbps = s.kbps := rfl
@[simp] theorem State.raiseExhausted_bidir : (s.raiseExhausted c).bidir = s.bidir := rfl
@[simp] theorem State.raiseExhausted_spb : (s.raiseExhausted c).spb = s.spb := rfl
@[simp] theorem State.raiseExhausted_act : (s.raiseExhausted c).act = s.act := rfl
@[simp] theorem State.raiseExhausted_inact : (s.raiseExhausted c).inact = s.inact := rfl
@[simp] theorem State.raiseExhausted_configLegal : (s.raiseExhausted c).configLegal = s.configLegal := rfl

end

section
variable (s : State)

@[simp] theorem State.raiseTlmLogOverflow_sampleRate : (s.raiseTlmLogOverflow).sampleRate = s.sampleRate := rfl
@[simp] theorem State.raiseTlmLogOverflow_kbps : (s.raiseTlmLogOverflow).kbps = s.kbps := rfl
@[simp] theorem State.raiseTlmLogOverflow_bidir : (s.raiseTlmLogOverflow).bidir = s.bidir := rfl
@[simp] theorem State.raiseTlmLogOverflow_spb : (s.raiseTlmLogOverflow).spb = s.spb := rfl
@[simp] theorem State.raiseTlmLogOverflow_act : (s.raiseTlmLogOverflow).act = s.act := rfl
@[simp] theorem State.raiseTlmLogOverflow_inact : (s.raiseTlmLogOverflow).inact = s.inact := rfl
@[simp] theorem State.raiseTlmLogOverflow_configLegal : (s.raiseTlmLogOverflow).configLegal = s.configLegal := rfl

end

section
variable (s : State) (f : Event) (p : Sample)

@[simp] theorem State.closeAttempt_sampleRate : (s.closeAttempt f p).sampleRate = s.sampleRate := rfl
@[simp] theorem State.closeAttempt_kbps : (s.closeAttempt f p).kbps = s.kbps := rfl
@[simp] theorem State.closeAttempt_bidir : (s.closeAttempt f p).bidir = s.bidir := rfl
@[simp] theorem State.closeAttempt_spb : (s.closeAttempt f p).spb = s.spb := rfl
@[simp] theorem State.closeAttempt_act : (s.closeAttempt f p).act = s.act := rfl
@[simp] theorem State.closeAttempt_inact : (s.closeAttempt f p).inact = s.inact := rfl
@[simp] theorem State.closeAttempt_configLegal : (s.closeAttempt f p).configLegal = s.configLegal := rfl

end

section
variable (s : State) (r : Sample)

@[simp] theorem State.leadingEdge_sampleRate : (s.leadingEdge r).sampleRate = s.sampleRate := rfl
@[simp] theorem State.leadingEdge_kbps : (s.leadingEdge r).kbps = s.kbps := rfl
@[simp] theorem State.leadingEdge_bidir : (s.leadingEdge r).bidir = s.bidir := rfl
@[simp] theorem State.leadingEdge_spb : (s.leadingEdge r).spb = s.spb := rfl
@[simp] theorem State.leadingEdge_act : (s.leadingEdge r).act = s.act := rfl
@[simp] theorem State.leadingEdge_inact : (s.leadingEdge r).inact = s.inact := rfl
@[simp] theorem State.leadingEdge_configLegal : (s.leadingEdge r).configLegal = s.configLegal := rfl

end

section
variable (s : State) (l : Level) (r : Sample)

@[simp] theorem State.openCapture_sampleRate : (s.openCapture l r).sampleRate = s.sampleRate := rfl
@[simp] theorem State.openCapture_kbps : (s.openCapture l r).kbps = s.kbps := rfl
@[simp] theorem State.openCapture_bidir : (s.openCapture l r).bidir = s.bidir := rfl
@[simp] theorem State.openCapture_spb : (s.openCapture l r).spb = s.spb := rfl
@[simp] theorem State.openCapture_act : (s.openCapture l r).act = s.act := rfl
@[simp] theorem State.openCapture_inact : (s.openCapture l r).inact = s.inact := rfl
@[simp] theorem State.openCapture_configLegal : (s.openCapture l r).configLegal = s.configLegal := rfl

end

section
variable (s : State) (ts : List Sample)

@[simp] theorem State.arrive_sampleRate : (s.arrive ts).sampleRate = s.sampleRate := rfl
@[simp] theorem State.arrive_kbps : (s.arrive ts).kbps = s.kbps := rfl
@[simp] theorem State.arrive_bidir : (s.arrive ts).bidir = s.bidir := rfl
@[simp] theorem State.arrive_spb : (s.arrive ts).spb = s.spb := rfl
@[simp] theorem State.arrive_act : (s.arrive ts).act = s.act := rfl
@[simp] theorem State.arrive_inact : (s.arrive ts).inact = s.inact := rfl
@[simp] theorem State.arrive_configLegal : (s.arrive ts).configLegal = s.configLegal := rfl

end

end Sys2Proof.Machine
end

