-- ==== Sys2Proof/Laws/Ops.lean ====
section
/-! SUPPORT. One lemma per shared operation, saying once everything it can do; later proofs cite these and do not unfold the
operations. -/

namespace Sys2Proof

@[simp] theorem Level.other_other (l : Level) : l.other.other = l := by cases l <;> rfl

@[simp] theorem Level.other_ne (l : Level) : l.other ≠ l := by cases l <;> decide

/-- Two levels that differ are each other's opposite. -/
theorem Level.eq_other_of_ne {a b : Level} (h : a ≠ b) : a = b.other := by
  cases a <;> cases b <;> first | rfl | exact absurd rfl h

namespace Machine

/-! ## Fields and bits -/

/-- `v[i] <- b` changes bit `i` and no other. -/
theorem getLsbD_setBit {n : Nat} (v : BitVec n) (i j : Nat) (b : Bool) (hi : i < n) :
    (setBit v i b).getLsbD j = if j = i then b else v.getLsbD j := by
  unfold setBit
  have hb : ((BitVec.ofBool b).setWidth n).getLsbD (j - i) = (decide (j - i < n) && (decide (j - i = 0) && b)) := by
    rw [BitVec.getLsbD_setWidth, BitVec.getLsbD_ofBool]
  simp only [BitVec.getLsbD_or, BitVec.getLsbD_and, BitVec.getLsbD_not, BitVec.getLsbD_shiftLeft, hb, BitVec.getLsbD_one]
  by_cases hj : j < n
  · rcases Nat.lt_trichotomy j i with h | h | h
    · simp [h, Nat.ne_of_lt h, hj]
    · subst h
      simp [hj, Nat.zero_lt_of_lt hj]
    · have h1 : ¬ j < i := by omega
      have h2 : j - i ≠ 0 := by omega
      have h3 : j ≠ i := by omega
      simp [h1, h2, h3, hj]
  · have h3 : j ≠ i := by omega
    have hv : v.getLsbD j = false := BitVec.getLsbD_of_ge v j (by omega)
    simp [hj, h3, hv]

theorem State.act_eq (s : State) : s.act = s.inact.other := by
  unfold State.act State.inact; cases s.bidir <;> rfl

/-! ## Edge input -/

theorem EdgeInput.advance_cons {c : EdgeInput} {t : Sample} {rest : List Sample} (h : c.pending = t :: rest) :
    c.advance = .ok t { c with curPos := t, curLevel := c.curLevel.other, pending := rest } := by
  simp [EdgeInput.advance, h]

theorem EdgeInput.advance_nil {c : EdgeInput} (h : c.pending = []) :
    c.advance = if c.closed then .exhausted c else .hold := by
  simp [EdgeInput.advance, h]

theorem EdgeInput.peek_cons {c : EdgeInput} {t : Sample} {rest : List Sample} (h : c.pending = t :: rest) :
    c.peek = .ok t c := by
  simp [EdgeInput.peek, h]

theorem EdgeInput.peek_nil {c : EdgeInput} (h : c.pending = []) :
    c.peek = if c.closed then .exhausted c else .hold := by
  simp [EdgeInput.peek, h]

/-- Everything `Advance()` can do. -/
theorem EdgeInput.advance_cases (c : EdgeInput) :
    (∃ t rest, c.pending = t :: rest ∧
      c.advance = .ok t { c with curPos := t, curLevel := c.curLevel.other, pending := rest }) ∨
    (c.pending = [] ∧ c.closed = true ∧ c.advance = .exhausted c) ∨
    (c.pending = [] ∧ c.closed = false ∧ c.advance = .hold) := by
  cases h : c.pending with
  | cons t rest => exact .inl ⟨t, rest, rfl, c.advance_cons h⟩
  | nil => cases hc : c.closed <;> simp [EdgeInput.advance_nil h, hc]

/-- Everything `Peek()` can do. -/
theorem EdgeInput.peek_cases (c : EdgeInput) :
    (∃ t rest, c.pending = t :: rest ∧ c.peek = .ok t c) ∨
    (c.pending = [] ∧ c.closed = true ∧ c.peek = .exhausted c) ∨
    (c.pending = [] ∧ c.closed = false ∧ c.peek = .hold) := by
  cases h : c.pending with
  | cons t rest => exact .inl ⟨t, rest, rfl, c.peek_cons h⟩
  | nil => cases hc : c.closed <;> simp [EdgeInput.peek_nil h, hc]

/-- At the other level the skip loop passes nothing. -/
theorem EdgeInput.skipInactive_active {c : EdgeInput} {inact : Level} (h : c.curLevel ≠ inact) :
    c.skipInactive inact = .ok () c := by
  obtain ⟨pos, level, pending, closed⟩ := c
  cases pending <;> simp_all [EdgeInput.skipInactive, skipLoop]

/-- At the inactive level the skip loop is one `Advance()`. -/
theorem EdgeInput.skipInactive_inactive {c : EdgeInput} {inact : Level} (h : c.curLevel = inact) :
    c.skipInactive inact = c.advance.bind fun _ c => .ok () c := by
  obtain ⟨pos, level, pending, closed⟩ := c
  simp only at h
  subst h
  cases pending with
  | nil => cases closed <;> simp [EdgeInput.skipInactive, skipLoop, EdgeInput.advance, EdgeRead.bind]
  | cons t rest => cases rest <;> simp [EdgeInput.skipInactive, skipLoop, EdgeInput.advance, EdgeRead.bind]

/-- Everything the skip loop can do: it passes no edge, or one, or it waits for one. -/
theorem EdgeInput.skipInactive_cases (c : EdgeInput) (inact : Level) :
    (c.curLevel ≠ inact ∧ c.skipInactive inact = .ok () c) ∨
    (c.curLevel = inact ∧
      ((∃ t rest, c.pending = t :: rest ∧ c.skipInactive inact =
          .ok () { c with curPos := t, curLevel := c.curLevel.other, pending := rest }) ∨
       (c.pending = [] ∧ c.closed = true ∧ c.skipInactive inact = .exhausted c) ∨
       (c.pending = [] ∧ c.closed = false ∧ c.skipInactive inact = .hold))) := by
  by_cases h : c.curLevel = inact
  · refine .inr ⟨h, ?_⟩
    rw [EdgeInput.skipInactive_inactive h]
    obtain ⟨t, rest, hp, ha⟩ | ⟨hp, hc, ha⟩ | ⟨hp, hc, ha⟩ := c.advance_cases
    · exact .inl ⟨t, rest, hp, by rw [ha]; rfl⟩
    · exact .inr (.inl ⟨hp, hc, by rw [ha]; rfl⟩)
    · exact .inr (.inr ⟨hp, hc, by rw [ha]; rfl⟩)
  · exact .inl ⟨h, EdgeInput.skipInactive_active h⟩

@[simp] theorem EdgeRead.bind_ok {α β : Type} (a : α) (c : EdgeInput) (f : α → EdgeInput → EdgeRead β) :
    (EdgeRead.ok a c).bind f = f a c := rfl

@[simp] theorem EdgeRead.bind_hold {α β : Type} (f : α → EdgeInput → EdgeRead β) :
    (EdgeRead.hold : EdgeRead α).bind f = .hold := rfl

@[simp] theorem EdgeRead.bind_exhausted {α β : Type} (c : EdgeInput) (f : α → EdgeInput → EdgeRead β) :
    (EdgeRead.exhausted c : EdgeRead α).bind f = .exhausted c := rfl

/-! ## Ends of a step -/

@[simp] theorem settle_ok (s s' : State) (c : EdgeInput) : settle s (.ok s' c) = .next { s' with edge := c } := rfl

@[simp] theorem settle_hold (s : State) : settle s .hold = .next s := rfl

@[simp] theorem settle_exhausted (s : State) (c : EdgeInput) : settle s (.exhausted c) = .next (s.raiseExhausted c) := rfl

/-- Everything the end of an edge-reading operation can be. -/
theorem settle_cases {s t : State} {r : EdgeRead State} (h : settle s r = .next t) :
    (∃ s' c, r = .ok s' c ∧ t = { s' with edge := c }) ∨ (r = .hold ∧ t = s) ∨
    (∃ c, r = .exhausted c ∧ t = s.raiseExhausted c) := by
  cases r with
  | ok s' c => exact .inl ⟨s', c, rfl, (Host.Outcome.next.inj h).symm⟩
  | hold => exact .inr (.inl ⟨rfl, (Host.Outcome.next.inj h).symm⟩)
  | exhausted c => exact .inr (.inr ⟨c, rfl, (Host.Outcome.next.inj h).symm⟩)

/-- An edge-reading operation always answers a next state. -/
theorem settle_next (s : State) (r : EdgeRead State) : ∃ t, settle s r = .next t := by
  cases r <;> exact ⟨_, rfl⟩

/-! ## Telemetry log -/

/-- Everything `LogAppend` can do. -/
theorem State.logAppend_cases (s : State) (e : LogEntry) :
    (∃ cap, s.tlmLogCap = some cap ∧ cap ≤ s.tlmLog.length ∧ s.logAppend e = none) ∨
    ((∀ cap, s.tlmLogCap = some cap → s.tlmLog.length < cap) ∧
      s.logAppend e = some { s with tlmLog := s.tlmLog ++ [e] }) := by
  unfold State.logAppend
  cases h : s.tlmLogCap with
  | none => exact .inr ⟨by simp, rfl⟩
  | some cap =>
    by_cases hc : cap ≤ s.tlmLog.length
    · exact .inl ⟨cap, rfl, hc, by simp [hc]⟩
    · exact .inr ⟨by simpa using hc, by simp [hc]⟩

theorem State.logLevel_of_read {s : State} {j : Nat} {e : LogEntry} (h : s.logRead j = some e) : s.logLevel j = e.level := by
  simp [State.logLevel, h]

/-- The walk never goes back. -/
theorem le_walkLog (start : Sample) (limit j : Nat) (rest : List LogEntry) : j ≤ walkLog start limit j rest := by
  induction rest generalizing j with
  | nil => exact Nat.le_refl j
  | cons e rest ih =>
    unfold walkLog
    split
    · exact Nat.le_trans (Nat.le_succ j) (ih (j + 1))
    · exact Nat.le_refl j

/-! ## Operations -/

/-- Everything a bit's error test can do. -/
theorem State.bitError_cases (s : State) (w : Nat) (f : Sample) (c : EdgeInput) :
    (isShort s.spb w = true ∧ s.bitError w f c = .ok true c) ∨
    (isShort s.spb w = false ∧ s.bitIdx.toNat = 15 ∧ s.bitError w f c = .ok false c) ∨
    (isShort s.spb w = false ∧ s.bitIdx.toNat < 15 ∧
      ((∃ n rest, c.pending = n :: rest ∧ s.bitError w f c = .ok (isLate s.spb (n.toNat - f.toNat)) c) ∨
       (c.pending = [] ∧ c.closed = true ∧ s.bitError w f c = .exhausted c) ∨
       (c.pending = [] ∧ c.closed = false ∧ s.bitError w f c = .hold))) := by
  unfold State.bitError
  have hlt := s.bitIdx.isLt
  by_cases hs : isShort s.spb w = true
  · exact .inl ⟨hs, by simp [hs]⟩
  · have hs' : isShort s.spb w = false := by simpa using hs
    by_cases hi : s.bitIdx.toNat < 15
    · refine .inr (.inr ⟨hs', hi, ?_⟩)
      obtain ⟨n, rest, hp, he⟩ | ⟨hp, hc, he⟩ | ⟨hp, hc, he⟩ := c.peek_cases
      · exact .inl ⟨n, rest, hp, by simp [hs', hi, he]⟩
      · exact .inr (.inl ⟨hp, hc, by simp [hs', hi, he]⟩)
      · exact .inr (.inr ⟨hp, hc, by simp [hs', hi, he]⟩)
    · exact .inr (.inl ⟨hs', by omega, by simp [hs', hi]⟩)

/-- Everything SCAN_BIT can do: wait or be exhausted in the skip; open capture; wait or be exhausted at the falling edge; or read
the pulse, when the bit's error test decides what is left (`bitError_cases`). -/
theorem State.scanBit_cases (s : State) :
    (∃ c, s.edge.skipInactive s.inact = .exhausted c ∧ s.scanBit = .exhausted c) ∨
    (s.edge.skipInactive s.inact = .hold ∧ s.scanBit = .hold) ∨
    ∃ c, s.edge.skipInactive s.inact = .ok () c ∧
      ((inTlmWindow s.sampleRate (c.curPos.toNat - s.lastEnd.toNat) = true ∧
        s.scanBit = .ok ((s.leadingEdge c.curPos).openCapture c.curLevel c.curPos) c) ∨
       (inTlmWindow s.sampleRate (c.curPos.toNat - s.lastEnd.toNat) = false ∧
        ((c.pending = [] ∧ c.closed = true ∧ s.scanBit = .exhausted c) ∨
         (c.pending = [] ∧ c.closed = false ∧ s.scanBit = .hold) ∨
         ∃ f rest, c.pending = f :: rest ∧
          s.scanBit = ((s.leadingEdge c.curPos).bitError (f.toNat - c.curPos.toNat) f
              { c with curPos := f, curLevel := c.curLevel.other, pending := rest }).bind
            fun err c' => .ok ((s.leadingEdge c.curPos).closeBit c.curPos (f.toNat - c.curPos.toNat) err) c'))) := by
  cases hs : s.edge.skipInactive s.inact with
  | exhausted c => exact .inl ⟨c, rfl, by unfold State.scanBit; rw [hs, EdgeRead.bind_exhausted]⟩
  | hold => exact .inr (.inl ⟨rfl, by unfold State.scanBit; rw [hs, EdgeRead.bind_hold]⟩)
  | ok u c =>
    have hscan : s.scanBit =
        if inTlmWindow s.sampleRate (c.curPos.toNat - s.lastEnd.toNat)
        then .ok ((s.leadingEdge c.curPos).openCapture c.curLevel c.curPos) c
        else c.advance.bind fun f c' =>
          ((s.leadingEdge c.curPos).bitError (f.toNat - c.curPos.toNat) f c').bind
            fun err c' => .ok ((s.leadingEdge c.curPos).closeBit c.curPos (f.toNat - c.curPos.toNat) err) c' := by
      unfold State.scanBit
      rw [hs, EdgeRead.bind_ok]
    refine .inr (.inr ⟨c, rfl, ?_⟩)
    rw [hscan]
    cases hw : inTlmWindow s.sampleRate (c.curPos.toNat - s.lastEnd.toNat) with
    | true => exact .inl ⟨rfl, if_pos rfl⟩
    | false =>
      refine .inr ⟨rfl, ?_⟩
      rw [if_neg Bool.false_ne_true]
      obtain ⟨f, rest, hp, ha⟩ | ⟨hp, hc, ha⟩ | ⟨hp, hc, ha⟩ := c.advance_cases
      · exact .inr (.inr ⟨f, rest, hp, by rw [ha, EdgeRead.bind_ok]⟩)
      · exact .inl ⟨hp, hc, by rw [ha, EdgeRead.bind_exhausted]⟩
      · exact .inr (.inl ⟨hp, hc, by rw [ha, EdgeRead.bind_hold]⟩)

/-- Everything TLM_RECORD can do: log one edge, overflow with no edge consumed, be exhausted, or hold. -/
theorem State.tlmRecord_cases (s : State) :
    (∃ t rest, s.edge.pending = t :: rest ∧ (∀ cap, s.tlmLogCap = some cap → s.tlmLog.length < cap) ∧
      s.tlmRecord = .ok
        (State.testWindow { s with tlmLog := s.tlmLog ++ [{ level := s.edge.curLevel.other, t := t }] } t)
        { s.edge with curPos := t, curLevel := s.edge.curLevel.other, pending := rest }) ∨
    (∃ cap, s.edge.pending ≠ [] ∧ s.tlmLogCap = some cap ∧ cap ≤ s.tlmLog.length ∧
      s.tlmRecord = .ok s.raiseTlmLogOverflow s.edge) ∨
    (s.edge.pending = [] ∧ s.edge.closed = true ∧ s.tlmRecord = .exhausted s.edge) ∨
    (s.edge.pending = [] ∧ s.edge.closed = false ∧ s.tlmRecord = .hold) := by
  unfold State.tlmRecord
  obtain ⟨t, rest, hp, ha⟩ | ⟨hp, hc, ha⟩ | ⟨hp, hc, ha⟩ := s.edge.advance_cases
  · rw [ha, EdgeRead.bind_ok]
    obtain ⟨cap, hcap, hle, hl⟩ | ⟨hroom, hl⟩ := s.logAppend_cases ⟨s.edge.curLevel.other, t⟩
    · exact .inr (.inl ⟨cap, by simp [hp], hcap, hle, by simp [hl]⟩)
    · exact .inl ⟨t, rest, hp, hroom, by simp [hl]⟩
  · exact .inr (.inr (.inl ⟨hp, hc, by simp [ha]⟩))
  · exact .inr (.inr (.inr ⟨hp, hc, by simp [ha]⟩))

end Machine

end Sys2Proof
end

