-- ==== Sys2Proof/Laws/Meanings.lean ====
section
/-! SUPPORT. What each operation can answer, said once: the inversion of every meaning that has more than one ending. -/

namespace Sys2Proof

namespace Machine

theorem nonDecreasing_cons {p t : Sample} {rest : List Sample} :
    nonDecreasing p (t :: rest) = true ↔ p ≤ t ∧ nonDecreasing t rest = true := by
  simp [nonDecreasing]

/-- `c'` is a cursor that some operation leaves after `c`: it has consumed `n` edges, in order. -/
structure EdgeInput.Consumed (c c' : EdgeInput) (n : Nat) : Prop where
  closed : c'.closed = c.closed
  pending : c'.pending = c.pending.drop n
  ordered : nonDecreasing c.curPos c.pending = true → c.curPos ≤ c'.curPos ∧ nonDecreasing c'.curPos c'.pending = true

theorem EdgeInput.Consumed.refl (c : EdgeInput) : c.Consumed c 0 :=
  ⟨rfl, by simp, fun h => ⟨BitVec.le_refl _, h⟩⟩

/-- One edge further. -/
theorem EdgeInput.Consumed.next {c c' : EdgeInput} {n : Nat} (h : c.Consumed c' n) {f : Sample} {rest : List Sample} {l : Level}
    (hp : c'.pending = f :: rest) :
    c.Consumed { c' with curPos := f, curLevel := l, pending := rest } (n + 1) := by
  refine ⟨h.closed, ?_, fun ho => ?_⟩
  · rw [← List.drop_drop, ← h.pending, hp]
    rfl
  · obtain ⟨h1, h2⟩ := h.ordered ho
    rw [hp, nonDecreasing_cons] at h2
    exact ⟨BitVec.le_trans h1 h2.1, h2.2⟩

/-- Where the skip loop ends: at the active level, at most one edge further. -/
theorem EdgeInput.skipInactive_ok {c c' : EdgeInput} {inact : Level} (h : c.skipInactive inact = .ok () c') :
    c'.curLevel = inact.other ∧ ∃ n, n ≤ 1 ∧ c.Consumed c' n := by
  obtain ⟨h1, h2⟩ | ⟨h1, ⟨t, rest, hp, h2⟩ | ⟨hp, hc, h2⟩ | ⟨hp, hc, h2⟩⟩ := c.skipInactive_cases inact <;> rw [h2] at h <;> cases h
  · exact ⟨Level.eq_other_of_ne h1, 0, by omega, .refl c⟩
  · exact ⟨by simp [h1], 1, by omega, (EdgeInput.Consumed.refl c).next hp⟩

theorem EdgeInput.skipInactive_exhausted {c c' : EdgeInput} {inact : Level} (h : c.skipInactive inact = .exhausted c') :
    c' = c ∧ c.closed = true ∧ c.pending = [] := by
  obtain ⟨h1, h2⟩ | ⟨h1, ⟨t, rest, hp, h2⟩ | ⟨hp, hc, h2⟩ | ⟨hp, hc, h2⟩⟩ := c.skipInactive_cases inact <;> rw [h2] at h <;> cases h
  exact ⟨rfl, hc, hp⟩

theorem EdgeInput.skipInactive_hold {c : EdgeInput} {inact : Level} (h : c.skipInactive inact = .hold) :
    c.closed = false ∧ c.pending = [] := by
  obtain ⟨h1, h2⟩ | ⟨h1, ⟨t, rest, hp, h2⟩ | ⟨hp, hc, h2⟩ | ⟨hp, hc, h2⟩⟩ := c.skipInactive_cases inact <;> rw [h2] at h <;> cases h
  exact ⟨hc, hp⟩

/-- Everything ALIGN answers: it holds, is exhausted with no edge consumed, or starts the first attempt. -/
theorem execAlign_cases {s t : State} (h : execAlign s = .next t) :
    (holds .align s = true ∧ s.edge.closed = false ∧ t = s) ∨
    (s.edge.closed = true ∧ t = s.raiseExhausted s.edge) ∨
    ∃ c n, n ≤ 1 ∧ s.edge.Consumed c n ∧ t = { s.startAttempt with edge := c } := by
  have hh : holds .align s = s.align.isHold := rfl
  rw [hh]
  unfold execAlign at h
  unfold State.align at h ⊢
  cases hs : s.edge.skipInactive s.inact with
  | ok u c =>
    rw [hs] at h
    cases h
    obtain ⟨-, n, hn, hc⟩ := EdgeInput.skipInactive_ok hs
    exact .inr (.inr ⟨c, n, hn, hc, rfl⟩)
  | hold =>
    rw [hs] at h
    cases h
    exact .inl ⟨rfl, (EdgeInput.skipInactive_hold hs).1, rfl⟩
  | exhausted c =>
    obtain ⟨rfl, hc, -⟩ := EdgeInput.skipInactive_exhausted hs
    rw [hs] at h
    cases h
    exact .inr (.inl ⟨hc, rfl⟩)

/-- Everything SCAN_BIT answers: it holds, is exhausted, opens capture at the leading edge, or reads a pulse that rose at `r`. -/
theorem execScanBit_cases {s t : State} (h : execScanBit s = .next t) :
    (holds .scanBit s = true ∧ s.edge.closed = false ∧ t = s) ∨
    (s.edge.closed = true ∧ ∃ c n, n ≤ 2 ∧ s.edge.Consumed c n ∧ t = s.raiseExhausted c) ∨
    (∃ c n, n ≤ 1 ∧ s.edge.Consumed c n ∧ c.curLevel = s.act ∧ s.edge.skipInactive s.inact = .ok () c ∧
      inTlmWindow s.sampleRate (c.curPos.toNat - s.lastEnd.toNat) = true ∧
      t = { (s.leadingEdge c.curPos).openCapture s.act c.curPos with edge := c }) ∨
    ∃ r w err c n, 1 ≤ n ∧ n ≤ 2 ∧ s.edge.Consumed c n ∧
      (nonDecreasing s.edge.curPos s.edge.pending = true → s.edge.curPos ≤ r ∧ r ≤ c.curPos) ∧
      w = c.curPos.toNat - r.toNat ∧ t = { (s.leadingEdge r).closeBit r w err with edge := c } := by
  have hh : holds .scanBit s = s.scanBit.isHold := rfl
  rw [hh]
  unfold execScanBit at h
  obtain ⟨c, h1, h2⟩ | ⟨h1, h2⟩ | ⟨c, h1, ⟨hw, h2⟩ | ⟨hw, ⟨hp, hc, h2⟩ | ⟨hp, hc, h2⟩ | ⟨f, rest, hp, h2⟩⟩⟩ := s.scanBit_cases <;>
    rw [h2] at h ⊢
  · obtain ⟨rfl, hc, -⟩ := EdgeInput.skipInactive_exhausted h1
    cases h
    exact .inr (.inl ⟨hc, _, 0, by omega, .refl _, rfl⟩)
  · cases h
    exact .inl ⟨rfl, (EdgeInput.skipInactive_hold h1).1, rfl⟩
  · obtain ⟨hl, n, hn, hc⟩ := EdgeInput.skipInactive_ok h1
    cases h
    rw [← State.act_eq] at hl
    exact .inr (.inr (.inl ⟨c, n, hn, hc, hl, h1, hw, by rw [hl]⟩))
  · obtain ⟨-, n, hn, hcon⟩ := EdgeInput.skipInactive_ok h1
    cases h
    exact .inr (.inl ⟨by rw [← hcon.closed, hc], c, n, by omega, hcon, rfl⟩)
  · obtain ⟨-, n, hn, hcon⟩ := EdgeInput.skipInactive_ok h1
    cases h
    exact .inl ⟨rfl, by rw [← hcon.closed, hc], rfl⟩
  · obtain ⟨-, n, hn, hcon⟩ := EdgeInput.skipInactive_ok h1
    have hnext := hcon.next (l := c.curLevel.other) hp
    have hord : nonDecreasing s.edge.curPos s.edge.pending = true → s.edge.curPos ≤ c.curPos ∧ c.curPos ≤ f := by
      intro ho
      obtain ⟨h1, h2⟩ := hcon.ordered ho
      rw [hp, nonDecreasing_cons] at h2
      exact ⟨h1, h2.1⟩
    obtain ⟨hs, hb⟩ | ⟨hs, hi, hb⟩ | ⟨hs, hi, ⟨n', rest', hp', hb⟩ | ⟨hp', hc', hb⟩ | ⟨hp', hc', hb⟩⟩ :=
      (s.leadingEdge c.curPos).bitError_cases (f.toNat - c.curPos.toNat) f
        { c with curPos := f, curLevel := c.curLevel.other, pending := rest } <;>
      rw [hb] at h ⊢ <;> cases h
    · exact .inr (.inr (.inr ⟨c.curPos, _, true, _, n + 1, by omega, by omega, hnext, hord, rfl, rfl⟩))
    · exact .inr (.inr (.inr ⟨c.curPos, _, false, _, n + 1, by omega, by omega, hnext, hord, rfl, rfl⟩))
    · exact .inr (.inr (.inr ⟨c.curPos, _, _, _, n + 1, by omega, by omega, hnext, hord, rfl, rfl⟩))
    · exact .inr (.inl ⟨by rw [← hcon.closed]; exact hc', _, n + 1, by omega, hnext, rfl⟩)
    · exact .inl ⟨rfl, by rw [← hcon.closed]; exact hc', rfl⟩

/-- How SCAN_BIT's last steps end: with the ERROR marker, at the last bit, or on to the next bit. -/
theorem State.closeBit_cases (s : State) (r : Sample) (w : Nat) (err : Bool) :
    (err = true ∧ s.closeBit r w err = { s.emit (.marker .error (markerPos r w)) with fsm := Fsm.emitAbort }) ∨
    (err = false ∧ s.bitIdx.toNat = 15 ∧ s.closeBit r w err =
      { s.emit (.marker (markerClass false 0 (isOne s.spb w)) (markerPos r w)) with
        word := setBit s.word 0 (isOne s.spb w), fsm := Fsm.emitCmd }) ∨
    (err = false ∧ s.bitIdx.toNat < 15 ∧ s.closeBit r w err =
      { s.emit (.marker (markerClass false (15 - s.bitIdx.toNat) (isOne s.spb w)) (markerPos r w)) with
        word := setBit s.word (15 - s.bitIdx.toNat) (isOne s.spb w), bitIdx := s.bitIdx + 1 }) := by
  have hlt := s.bitIdx.isLt
  cases err with
  | true => exact .inl ⟨rfl, by simp [State.closeBit, markerClass]⟩
  | false =>
    by_cases hi : s.bitIdx.toNat = 15
    · exact .inr (.inl ⟨rfl, hi, by simp [State.closeBit, hi]⟩)
    · exact .inr (.inr ⟨rfl, by omega, by simp [State.closeBit, hi]⟩)

/-- Everything TLM_RECORD answers. -/
theorem execTlmRecord_cases {s t : State} (h : execTlmRecord s = .next t) :
    (holds .tlmRecord s = true ∧ s.edge.closed = false ∧ t = s) ∨
    (s.edge.closed = true ∧ t = s.raiseExhausted s.edge) ∨
    (∃ cap, s.tlmLogCap = some cap ∧ cap ≤ s.tlmLog.length ∧ t = s.raiseTlmLogOverflow) ∨
    ∃ u rest, s.edge.pending = u :: rest ∧ t =
      { State.testWindow { s with tlmLog := s.tlmLog ++ [{ level := s.edge.curLevel.other, t := u }] } u with
        edge := { s.edge with curPos := u, curLevel := s.edge.curLevel.other, pending := rest } } := by
  have hh : holds .tlmRecord s = s.tlmRecord.isHold := rfl
  rw [hh]
  unfold execTlmRecord at h
  obtain ⟨u, rest, hp, -, h'⟩ | ⟨cap, -, hcap, hle, h'⟩ | ⟨hp, hc, h'⟩ | ⟨hp, hc, h'⟩ := s.tlmRecord_cases <;>
    rw [h'] at h ⊢ <;> cases h
  · exact .inr (.inr (.inr ⟨u, rest, hp, rfl⟩))
  · exact .inr (.inr (.inl ⟨cap, hcap, hle, rfl⟩))
  · exact .inr (.inl ⟨hc, rfl⟩)
  · exact .inl ⟨rfl, hc, rfl⟩

/-- The window test closes the window or changes nothing. -/
theorem State.testWindow_cases (s : State) (t : Sample) :
    (tlmExceeded s.sampleRate s.kbps (t.toNat - s.tlmStart.toNat) = false ∧ s.testWindow t = s) ∨
    (tlmExceeded s.sampleRate s.kbps (t.toNat - s.tlmStart.toNat) = true ∧
      s.testWindow t = { s with tlmEnd := t, fsm := Fsm.tlmSample }) := by
  unfold State.testWindow
  split <;> simp_all

/-- How TLM_SAMPLE ends: on to the next sample, or to EMIT_TLM. -/
theorem State.closeSample_cases (s : State) (k j : Nat) (level : Level) :
    (k = 19 ∧ s.closeSample k j level =
      { s.emit (.marker (if level = .high then .one else .zero) (s.tlmMarkerPos k)) with
        tlmJ := j, tlmData := setBit s.tlmData (19 - k) (decide (level = .high)), fsm := Fsm.emitTlm }) ∨
    (k ≠ 19 ∧ s.closeSample k j level =
      { s.emit (.marker (if level = .high then .one else .zero) (s.tlmMarkerPos k)) with
        tlmJ := j, tlmData := setBit s.tlmData (19 - k) (decide (level = .high)), tlmK := s.tlmK + 1 }) := by
  by_cases h : k = 19 <;> cases level <;> simp [State.closeSample, h]

end Machine

end Sys2Proof
end

