-- ==== Sys2Proof/Laws/PerInstr.lean ====
section
/-! SUPPORT. The statements made once per instruction: every encoded value fits the format of its row. -/

namespace Sys2Proof

namespace Laws

/-- How many bits the format of the instruction's row has (R103, R300, R304, R310 to R316, R320); a marker class row carries the
64 bits of its sample above its 3 bits (log entry 6). -/
def EncodedWidth.width : Instr → Nat
  | .align | .scanBit | .tlmRecord | .tlmSample | .emitTlm | .emitCmd | .emitAbort | .checkpoint | .done | .fault => 4
  | .reservedFsm1010 | .reservedFsm1011 | .reservedFsm1100 | .reservedFsm1101 | .reservedFsm1110 | .reservedFsm1111 => 4
  | .marker _ _ => 70
  | .cmdFrame _ => 161
  | .tlmFrame _ => 151
  | .commitPacket | .commitResults | .reservedTag101 | .reservedTag110 | .reservedTag111 => 3
  | .markerZero _ | .markerOne _ | .markerStart _ | .markerStop _ | .markerError _ => 67
  | .markerReserved101 _ | .markerReserved110 _ | .markerReserved111 _ => 67
  | .cmdWord _ _ _ => 16
  | .tlmWord _ => 20
  | .cfgCtrl _ _ _ => 32

/-- The encoded value has no bit above its format. -/
def EncodedWidth.Statement (i : Instr) : Prop := (encode i).bits < 2 ^ EncodedWidth.width i

theorem EncodedWidth.align : EncodedWidth.Statement .align := by unfold EncodedWidth.Statement; decide

theorem EncodedWidth.scanBit : EncodedWidth.Statement .scanBit := by unfold EncodedWidth.Statement; decide

theorem EncodedWidth.tlmRecord : EncodedWidth.Statement .tlmRecord := by unfold EncodedWidth.Statement; decide

theorem EncodedWidth.tlmSample : EncodedWidth.Statement .tlmSample := by unfold EncodedWidth.Statement; decide

theorem EncodedWidth.emitTlm : EncodedWidth.Statement .emitTlm := by unfold EncodedWidth.Statement; decide

theorem EncodedWidth.emitCmd : EncodedWidth.Statement .emitCmd := by unfold EncodedWidth.Statement; decide

theorem EncodedWidth.emitAbort : EncodedWidth.Statement .emitAbort := by unfold EncodedWidth.Statement; decide

theorem EncodedWidth.checkpoint : EncodedWidth.Statement .checkpoint := by unfold EncodedWidth.Statement; decide

theorem EncodedWidth.done : EncodedWidth.Statement .done := by unfold EncodedWidth.Statement; decide

theorem EncodedWidth.fault : EncodedWidth.Statement .fault := by unfold EncodedWidth.Statement; decide

theorem EncodedWidth.reservedFsm1010 : EncodedWidth.Statement .reservedFsm1010 := by unfold EncodedWidth.Statement; decide

theorem EncodedWidth.reservedFsm1011 : EncodedWidth.Statement .reservedFsm1011 := by unfold EncodedWidth.Statement; decide

theorem EncodedWidth.reservedFsm1100 : EncodedWidth.Statement .reservedFsm1100 := by unfold EncodedWidth.Statement; decide

theorem EncodedWidth.reservedFsm1101 : EncodedWidth.Statement .reservedFsm1101 := by unfold EncodedWidth.Statement; decide

theorem EncodedWidth.reservedFsm1110 : EncodedWidth.Statement .reservedFsm1110 := by unfold EncodedWidth.Statement; decide

theorem EncodedWidth.reservedFsm1111 : EncodedWidth.Statement .reservedFsm1111 := by unfold EncodedWidth.Statement; decide

theorem EncodedWidth.marker (cls : MarkerClass) (sample : Sample) : EncodedWidth.Statement (.marker cls sample) :=
  BitVec.isLt _

theorem EncodedWidth.cmdFrame (f : CmdFrame) : EncodedWidth.Statement (.cmdFrame f) := BitVec.isLt _

theorem EncodedWidth.tlmFrame (f : TlmFrame) : EncodedWidth.Statement (.tlmFrame f) := BitVec.isLt _

theorem EncodedWidth.commitPacket : EncodedWidth.Statement .commitPacket := by unfold EncodedWidth.Statement; decide

theorem EncodedWidth.commitResults : EncodedWidth.Statement .commitResults := by unfold EncodedWidth.Statement; decide

theorem EncodedWidth.reservedTag101 : EncodedWidth.Statement .reservedTag101 := by unfold EncodedWidth.Statement; decide

theorem EncodedWidth.reservedTag110 : EncodedWidth.Statement .reservedTag110 := by unfold EncodedWidth.Statement; decide

theorem EncodedWidth.reservedTag111 : EncodedWidth.Statement .reservedTag111 := by unfold EncodedWidth.Statement; decide

theorem EncodedWidth.markerZero (sample : Sample) : EncodedWidth.Statement (.markerZero sample) := BitVec.isLt _

theorem EncodedWidth.markerOne (sample : Sample) : EncodedWidth.Statement (.markerOne sample) := BitVec.isLt _

theorem EncodedWidth.markerStart (sample : Sample) : EncodedWidth.Statement (.markerStart sample) := BitVec.isLt _

theorem EncodedWidth.markerStop (sample : Sample) : EncodedWidth.Statement (.markerStop sample) := BitVec.isLt _

theorem EncodedWidth.markerError (sample : Sample) : EncodedWidth.Statement (.markerError sample) := BitVec.isLt _

theorem EncodedWidth.markerReserved101 (sample : Sample) : EncodedWidth.Statement (.markerReserved101 sample) := BitVec.isLt _

theorem EncodedWidth.markerReserved110 (sample : Sample) : EncodedWidth.Statement (.markerReserved110 sample) := BitVec.isLt _

theorem EncodedWidth.markerReserved111 (sample : Sample) : EncodedWidth.Statement (.markerReserved111 sample) := BitVec.isLt _

theorem EncodedWidth.cmdWord (payload : BitVec 11) (tlmReq : BitVec 1) (crc : BitVec 4) :
    EncodedWidth.Statement (.cmdWord payload tlmReq crc) := BitVec.isLt _

theorem EncodedWidth.tlmWord (data : BitVec 20) : EncodedWidth.Statement (.tlmWord data) := BitVec.isLt _

theorem EncodedWidth.cfgCtrl (reserved : BitVec 29) (bidir : BitVec 1) (rate : BitVec 2) :
    EncodedWidth.Statement (.cfgCtrl reserved bidir rate) := BitVec.isLt _

end Laws

end Sys2Proof
end

