-- ==== Sys2Proof/Laws/Step.lean ====
section
/-! SUPPORT. What a step can be, said once: the decoder's operation, a value at a port, or a move of another agent. -/

namespace Sys2Proof

namespace Machine

/-- The decoder reads every code that stands in `fsm`. -/
theorem decode_fetch (s : State) : decode s.fetch = .ok (decodeFsm s.fsm) := by
  have h : s.fsm.toNat < 16 := s.fsm.isLt
  simp [decode, State.fetch, fits, h]

/-- The codes of the state register: the ten defined ones and the reserved ones. -/
theorem fsm_cases (c : BitVec 4) :
    c = Fsm.align ∨ c = Fsm.scanBit ∨ c = Fsm.tlmRecord ∨ c = Fsm.tlmSample ∨ c = Fsm.emitTlm ∨ c = Fsm.emitCmd ∨
    c = Fsm.emitAbort ∨ c = Fsm.checkpoint ∨ c = Fsm.done ∨ c = Fsm.fault ∨ 10 ≤ c.toNat := by
  revert c
  decide

/-- Away from CHECKPOINT no cancel lands. -/
theorem State.landCancel_of_ne {s : State} (h : s.fsm ≠ Fsm.checkpoint) : s.landCancel = s := by
  simp [State.landCancel, h]

/-- Everything the host's cancel of `CANCEL@n` can do before a step. -/
theorem State.landCancel_cases (s : State) :
    s.landCancel = s ∨
    (∃ n, s.landCancel = { s with cancelAt := some n }) ∨
    s.landCancel = { s with cancelReq := true, cancelAt := none } := by
  unfold State.landCancel
  split
  · split
    · split
      · exact .inr (.inr rfl)
      · exact .inr (.inl ⟨_, rfl⟩)
    · exact .inl rfl
  · exact .inl rfl

/-- Cancelling leaves alone all that the choice and the stop of an operation read. -/
theorem State.landCancel_frame (s : State) :
    s.landCancel = { s with cancelReq := s.landCancel.cancelReq, cancelAt := s.landCancel.cancelAt } := by
  obtain h | ⟨n, h⟩ | h := s.landCancel_cases <;> rw [h]

@[simp] theorem State.landCancel_stopCause (s : State) : s.landCancel.stopCause = s.stopCause := by
  rw [s.landCancel_frame]

/-- The block is stuck on a reserved register value exactly with `stop_cause` 3. -/
theorem State.stuckOn_cases (s : State) :
    (s.stopCause = 3 ∧ s.stuckOn = some .reservedStopCause) ∨ (s.stopCause ≠ 3 ∧ s.stuckOn = none) := by
  unfold State.stuckOn
  split
  · exact .inl ⟨‹_›, rfl⟩
  · exact .inr ⟨‹_›, rfl⟩

/-- Off the reserved `stop_cause`, a decoded instruction is run. -/
theorem runDecoded_ok {i : Instr} {s : State} (h : s.stopCause ≠ 3) : runDecoded (.ok i) s = exec i s := by
  obtain ⟨hc, hs⟩ | ⟨-, hs⟩ := s.stuckOn_cases
  · exact absurd hc h
  · simp only [runDecoded, hs]

/-- On the reserved `stop_cause`, nothing is run. -/
theorem runDecoded_stuck {d : Decoded} {s : State} (h : s.stopCause = 3) : runDecoded d s = .fault .reservedStopCause := by
  obtain ⟨-, hs⟩ | ⟨hc, -⟩ := s.stuckOn_cases
  · simp only [runDecoded, hs]
  · exact absurd h hc

/-- A decoded instruction that answers a next state is run in a state with no reserved register value. -/
theorem runDecoded_next {d : Decoded} {s s' : State} (h : runDecoded d s = .next s') :
    s.stopCause ≠ 3 ∧ ∃ i, d = .ok i ∧ exec i s = .next s' := by
  unfold runDecoded at h
  obtain ⟨hc, hs⟩ | ⟨hc, hs⟩ := s.stuckOn_cases <;> rw [hs] at h
  · cases h
  · cases d with
    | ok i => exact ⟨hc, i, rfl, h⟩
    | rejected e => cases h

/-- Everything a step that answers a next state can be. An operation or a value at a port runs only where `stop_cause` is not the
reserved 3. -/
theorem step_cases {s s' : State} (h : step s = .next s') :
    (∃ rest, (s.schedule = rest ∨ ∃ m, s.schedule = m :: rest) ∧
      ((s.inReset = true ∧ s' = { s with schedule := rest }) ∨
       (s.inReset = false ∧ s.stopCause ≠ 3 ∧ exec (decodeFsm s.fsm) { s with schedule := rest }.landCancel = .next s'))) ∨
    (∃ c i rest, s.schedule = .value c :: rest ∧ s.portOpen c = true ∧ s.stopCause ≠ 3 ∧ decodePort c = .ok i ∧
      exec i { s with schedule := rest } = .next s') ∨
    ∃ m rest, s.schedule = .env m :: rest ∧ m.apply { s with schedule := rest } = .next s' := by
  have hblock : ∀ u : State, blockStep u = .next s' →
      (u.inReset = true ∧ s' = u) ∨
      (u.inReset = false ∧ u.stopCause ≠ 3 ∧ exec (decodeFsm u.fsm) u.landCancel = .next s') := by
    intro u hu
    unfold blockStep at hu
    rw [decode_fetch] at hu
    cases hr : u.inReset <;> rw [hr] at hu
    · rw [if_neg Bool.false_ne_true] at hu
      obtain ⟨hc, i, hi, hx⟩ := runDecoded_next hu
      cases hi
      rw [State.landCancel_stopCause] at hc
      exact .inr ⟨rfl, hc, hx⟩
    · exact .inl ⟨rfl, (Host.Outcome.next.inj hu).symm⟩
  unfold step at h
  split at h
  · exact .inl ⟨s.schedule, .inl rfl, hblock s h⟩
  · rename_i rest hs
    exact .inl ⟨rest, .inr ⟨_, hs⟩, hblock { s with schedule := rest } h⟩
  · rename_i c rest hs
    cases hp : s.portOpen c <;> rw [hp] at h
    · refine .inl ⟨rest, .inr ⟨_, hs⟩, .inl ⟨?_, (Host.Outcome.next.inj h).symm⟩⟩
      simp only [State.portOpen, Bool.or_eq_false_iff] at hp
      simpa using hp.1
    · obtain ⟨hc, i, hd, hx⟩ := runDecoded_next h
      exact .inr (.inl ⟨c, i, rest, hs, hp, hc, hd, hx⟩)
  · rename_i m rest hs
    exact .inr (.inr ⟨m, rest, hs, h⟩)

/-- Everything a move of the host or of the edge source that is accepted can do. -/
theorem EnvMove.apply_cases {m : EnvMove} {s t : State} (h : m.apply s = .next t) :
    t = s ∨
    t = s.assertReset ∨
    ((s.inReset = true → s.configLegal = true) ∧ t = { s with inReset := false }) ∨
    (s.inReset = true ∧ ∃ v : BitVec 32, t = { s with cfgCtrl := v &&& 0x00000007 }) ∨
    (s.inReset = true ∧ ∃ v, t = { s with cfgSampleRate := v }) ∨
    (s.inReset = true ∧ ∃ v, t = { s with cfgLine := v % 2 ^ Config.lineIdWidth }) ∨
    (s.inReset = false ∧ t = { s with cancelReq := true }) ∨
    (∃ n, t = { s with cancelAt := n }) ∨
    (s.inReset = true ∧ ∃ c, nonDecreasing c.curPos c.pending = true ∧ t = { s with edge := c }) ∨
    (∃ u, s.edge.closed = false ∧ s.edge.lastGiven ≤ u ∧ t = s.arrive [u]) ∨
    t = { s with edge := { s.edge with closed := true } } := by
  cases m with
  | assertReset => exact .inr (.inl (Host.Outcome.next.inj h).symm)
  | releaseReset =>
    simp only [EnvMove.apply, State.releaseReset] at h
    split at h
    · cases h
    · rename_i hc
      exact .inr (.inr (.inl ⟨by simpa using hc, (Host.Outcome.next.inj h).symm⟩))
  | writeReg n v =>
    simp only [EnvMove.apply, State.writeReg] at h
    cases hr : s.inReset <;> split at h <;>
      simp only [State.writeCfgCtrl, State.writeCfgSampleRate, State.writeCfgLine, State.writeCancel, State.setCancel, hr,
        Bool.false_eq_true, if_false, if_true, Host.Outcome.next.injEq, ite_self, reduceCtorEq] at h
    all_goals first
      | exact .inl h.symm
      | exact .inr (.inr (.inr (.inl ⟨rfl, _, h.symm⟩)))
      | exact .inr (.inr (.inr (.inr (.inl ⟨rfl, _, h.symm⟩))))
      | exact .inr (.inr (.inr (.inr (.inr (.inl ⟨rfl, _, h.symm⟩)))))
      | skip
    split at h
    · exact .inr (.inr (.inr (.inr (.inr (.inr (.inl ⟨rfl, h.symm⟩))))))
    · exact .inl h.symm
  | cancel =>
    simp only [EnvMove.apply, State.setCancel, Host.Outcome.next.injEq] at h
    cases hr : s.inReset <;> rw [hr] at h
    · exact .inr (.inr (.inr (.inr (.inr (.inr (.inl ⟨rfl, h.symm⟩))))))
    · exact .inl h.symm
  | cancelAt n => exact .inr (.inr (.inr (.inr (.inr (.inr (.inr (.inl ⟨some n, (Host.Outcome.next.inj h).symm⟩)))))))
  | attach level pos edges closed =>
    simp only [EnvMove.apply, State.attachStream] at h
    split at h
    · cases h
    · rename_i hr
      split at h
      · rename_i hs
        exact .inr (.inr (.inr (.inr (.inr (.inr (.inr (.inr (.inl
          ⟨by simpa using hr, _, hs, (Host.Outcome.next.inj h).symm⟩))))))))
      · cases h
  | edge u =>
    simp only [EnvMove.apply, State.appendEdge] at h
    split at h
    · rename_i hc
      exact .inr (.inr (.inr (.inr (.inr (.inr (.inr (.inr (.inr (.inl
        ⟨u, hc.1, hc.2, (Host.Outcome.next.inj h).symm⟩)))))))))
    · cases h
  | close => exact .inr (.inr (.inr (.inr (.inr (.inr (.inr (.inr (.inr (.inr (Host.Outcome.next.inj h).symm)))))))))

end Machine

end Sys2Proof
end

