-- ==== Sys2Proof/Tests/Slice0.lean ====
section
/-! SUPPORT. The model's own tests. Every expected value is written out from the tables of 30_encoding.md or is a value of
95_test_vectors.md, named by its vector; and for every statement with hypotheses a witness that meets them together. -/

namespace Sys2Proof.Tests

open Sys2Proof Sys2Proof.Machine

/-! ## Helpers -/

/-- A run's state under `CFG SR=24000000 K=600 BIDIR=0`, with the cursor at `pos` and `level` and the edges `edges` ahead. -/
def std (level : Level) (pos : Sample) (edges : List Sample) (closed : Bool) : State :=
  { State.reset with
    cfgCtrl := 2, cfgSampleRate := 24000000, inReset := false,
    edge := { curPos := pos, curLevel := level, pending := edges, closed := closed } }

/-- The same under `BIDIR=1`. -/
def bidir (level : Level) (pos : Sample) (edges : List Sample) (closed : Bool) : State :=
  { std level pos edges closed with cfgCtrl := 6 }

/-- What `f` reads from a next state. -/
def after {α : Type} (o : Host.Outcome State Fault Refusal) (f : State → α) : Option α :=
  match o with
  | .next s => some (f s)
  | .fault _ => none
  | .refused _ => none

/-- The reason of a refusal. -/
def refusal (o : Host.Outcome State Fault Refusal) : Option Refusal :=
  match o with
  | .next _ => none
  | .fault _ => none
  | .refused r => some r

/-- The reason of a fault. -/
def faultOf (o : Host.Outcome State Fault Refusal) : Option Fault :=
  match o with
  | .next _ => none
  | .fault r => some r
  | .refused _ => none

/-- A telemetry capture: the log and the window of `s`. -/
def captured (s : State) (log : List LogEntry) (start stop : Sample) (k : BitVec 5) (j : Nat) : State :=
  { s with fsm := 0b0011, tlmLog := log, tlmStart := start, tlmEnd := stop, tlmK := k, tlmJ := j }

/-- A command frame's fields of vector W10. -/
def errored : CmdFrame where
  payload := 0x410
  raw := 0x8200
  crcOk := false
  tlmReq := false
  err := true
  start := 2000
  stop := 2284

/-! ## Decoding, from the tables of 30_encoding.md -/

theorem test_decode_state_codes :
    decode ⟨.fsm, 0b0000⟩ = .ok .align ∧ decode ⟨.fsm, 0b0001⟩ = .ok .scanBit ∧ decode ⟨.fsm, 0b0010⟩ = .ok .tlmRecord ∧
    decode ⟨.fsm, 0b0011⟩ = .ok .tlmSample ∧ decode ⟨.fsm, 0b0100⟩ = .ok .emitTlm ∧ decode ⟨.fsm, 0b0101⟩ = .ok .emitCmd ∧
    decode ⟨.fsm, 0b0110⟩ = .ok .emitAbort ∧ decode ⟨.fsm, 0b0111⟩ = .ok .checkpoint ∧ decode ⟨.fsm, 0b1000⟩ = .ok .done ∧
    decode ⟨.fsm, 0b1001⟩ = .ok .fault := by decide

theorem test_decode_reserved_state_codes :
    decode ⟨.fsm, 0b1010⟩ = .ok .reservedFsm1010 ∧ decode ⟨.fsm, 0b1011⟩ = .ok .reservedFsm1011 ∧
    decode ⟨.fsm, 0b1100⟩ = .ok .reservedFsm1100 ∧ decode ⟨.fsm, 0b1101⟩ = .ok .reservedFsm1101 ∧
    decode ⟨.fsm, 0b1110⟩ = .ok .reservedFsm1110 ∧ decode ⟨.fsm, 0b1111⟩ = .ok .reservedFsm1111 := by decide

/-- 95_test_vectors.md, section 2.8. -/
theorem test_decode_records :
    decode ⟨.event, 0x1f7c8⟩ = .ok (.marker .one 2015) ∧ decode ⟨.event, 0x263d8⟩ = .ok (.marker .stop 2447) ∧
    decode ⟨.event, 0x28bc0⟩ = .ok (.marker .zero 2607) ∧ decode ⟨.event, 0x291a0⟩ = .ok (.marker .error 2630) ∧
    decode ⟨.event, 0x11d80000000000000fa120802081⟩ = .ok (.cmdFrame errored) ∧
    decode ⟨.event, 0x81b000000000000068b2d1e4a⟩ = .ok (.tlmFrame { data := 0x5a3c9, start := 3350, stop := 4150 }) ∧
    decode ⟨.event, 0x3⟩ = .ok .commitPacket ∧ decode ⟨.event, 0x4⟩ = .ok .commitResults := by decide

theorem test_decode_reserved_tags :
    decode ⟨.event, 0b101⟩ = .ok .reservedTag101 ∧ decode ⟨.event, 0b110⟩ = .ok .reservedTag110 ∧
    decode ⟨.event, 0b111⟩ = .ok .reservedTag111 := by decide

/-- The class codes of R316, the sample 1 above them. -/
theorem test_decode_marker_classes :
    decode ⟨.cls, 0b1_000⟩ = .ok (.markerZero 1) ∧ decode ⟨.cls, 0b1_001⟩ = .ok (.markerOne 1) ∧
    decode ⟨.cls, 0b1_010⟩ = .ok (.markerStart 1) ∧ decode ⟨.cls, 0b1_011⟩ = .ok (.markerStop 1) ∧
    decode ⟨.cls, 0b1_100⟩ = .ok (.markerError 1) ∧ decode ⟨.cls, 0b1_101⟩ = .ok (.markerReserved101 1) ∧
    decode ⟨.cls, 0b1_110⟩ = .ok (.markerReserved110 1) ∧ decode ⟨.cls, 0b1_111⟩ = .ok (.markerReserved111 1) := by decide

/-- R300 (with W11's `0x82C6`: payload 0x416, request 0, nibble 6), R304, R103. -/
theorem test_decode_words :
    decode ⟨.cmdWord, 0b11111111111_1_0001⟩ = .ok (.cmdWord 0x7FF 1 1) ∧
    decode ⟨.cmdWord, 0x82C6⟩ = .ok (.cmdWord 0x416 0 6) ∧
    decode ⟨.tlmWord, 0x5A3C9⟩ = .ok (.tlmWord 0x5A3C9) ∧
    decode ⟨.cfgCtrl, 0b1_10⟩ = .ok (.cfgCtrl 0 1 0b10) ∧
    decode ⟨.cfgCtrl, 0b1_0_01⟩ = .ok (.cfgCtrl 1 0 0b01) := by decide

/-- A bit above the format, a reserved class in a record, a state code at a port. -/
theorem test_decode_rejects :
    decode ⟨.fsm, 0b10000⟩ = .rejected .tooWide ∧ decode ⟨.event, 0b1011⟩ = .rejected .tooWide ∧
    decode ⟨.event, 0b101_000⟩ = .rejected .reservedClass ∧ decode ⟨.event, 0b110_000⟩ = .rejected .reservedClass ∧
    decode ⟨.event, 0b111_000⟩ = .rejected .reservedClass ∧ decode ⟨.cmdWord, 0x10000⟩ = .rejected .tooWide ∧
    decodePort ⟨.fsm, 0b0001⟩ = .rejected .stateCodeAtPort := by decide

/-- 95_test_vectors.md, section 2.8. -/
theorem test_encode_records :
    (Event.marker .one 2015).encode = 0x1f7c8 ∧ (Event.cmdFrame errored).encode = 0x11d80000000000000fa120802081 ∧
    (Event.tlmFrame { data := 0xb0000, start := 380, stop := 3000 }).encode = 0x5dc00000000000000be580002 ∧
    Event.commitPacket.encode = 0x3 ∧ Event.commitResults.encode = 0x4 := by decide

/-- Each row is read in its own format. -/
theorem test_decodeTableWord :
    decodeTableWord 8 0b0001 = some .scanBit ∧ decodeTableWord 4 0b1001 = some .fault ∧
    decodeTableWord 72 0x1f7c8 = some (.marker .one 2015) ∧ decodeTableWord 3 0b011 = some .commitPacket ∧
    decodeTableWord 16 0xFFEE = some (.cmdWord 0x7FF 0 0xE) ∧ decodeTableWord 24 0x5A3C9 = some (.tlmWord 0x5A3C9) ∧
    decodeTableWord 32 6 = some (.cfgCtrl 0 1 2) ∧ decodeTableWord 5 0 = none := by decide

/-! ## WellFormed: for each check an ill-formed term, which it refuses -/

theorem test_wellFormed_good :
    (Instr.cmdFrame errored).wellFormed = true ∧ (Instr.cfgCtrl 0 1 2).wellFormed = true := by decide

theorem test_wellFormed_refuses_wrong_payload : (Instr.cmdFrame { errored with payload := 0x411 }).wellFormed = false := by decide

theorem test_wellFormed_refuses_wrong_request : (Instr.cmdFrame { errored with tlmReq := true }).wellFormed = false := by decide

theorem test_wellFormed_refuses_wrong_err : (Instr.cmdFrame { errored with err := false }).wellFormed = false := by decide

theorem test_wellFormed_refuses_reserved_bits : (Instr.cfgCtrl 1 0 0).wellFormed = false := by decide

/-! ## Pure functions -/

/-- W1. -/
theorem test_crc :
    crcOk 0xFFEE false = true ∧ crcOk 0xFFEE true = false ∧ crcOk 0xFFE1 false = false ∧ crcOk 0xFFE1 true = true ∧
    crc4 0x82C6 = 0x6 ∧ crcOk 0xFFEF false = false ∧ crcOk 0xFFEF true = false := by decide

/-- Section 2.1. -/
theorem test_derived_constants :
    (std .low 0 [] false).spb = 40 ∧ (std .low 0 [] false).minSampleRate = 2400000 ∧
    { std .low 0 [] false with cfgCtrl := 3, cfgSampleRate := 100000000 }.spb = 83 ∧
    { std .low 0 [] false with cfgCtrl := 3, cfgSampleRate := 4800000 }.spb = 4 := by decide

/-- W2 to W4: the boundaries of the thresholds and windows at SR = 24000000, K = 600. -/
theorem test_thresholds :
    isOne 40 20 = false ∧ isOne 40 21 = true ∧ isShort 40 7 = true ∧ isShort 40 8 = false ∧
    isLate 40 60 = false ∧ isLate 40 61 = true ∧ inTlmWindow 24000000 360 = false ∧ inTlmWindow 24000000 361 = true ∧
    inTlmWindow 24000000 1079 = true ∧ inTlmWindow 24000000 1080 = false ∧ tlmExceeded 24000000 600 768 = false ∧
    tlmExceeded 24000000 600 769 = true := by decide

/-! ## Operations -/

/-- P1: ALIGN passes the edge at 2000. -/
theorem test_align_passes_one_edge :
    after (exec .align { std .low 0 [2000, 2030] true with word := 0xFFFF, bitIdx := 3 })
      (fun s => (s.fsm, s.word, s.bitIdx, s.edge)) =
    some (0b0001, 0, 0, { curPos := 2000, curLevel := .high, pending := [2030], closed := true }) := by decide

/-- V1: ALIGN on a closed, empty stream: STATUS = 0x4008. -/
theorem test_align_exhausted : after (exec .align (std .low 0 [] true)) State.status = some 0x4008 := by decide

/-- R408: bit 11 is the request bit, 0 here; V5's marker floor. -/
theorem test_scanBit_reads_a_bit :
    after (exec .scanBit { std .high 2000 [2015, 2040] true with fsm := 0b0001, bitIdx := 11 })
      (fun s => (s.trace, s.bitIdx, s.edge.curPos)) = some ([.marker .stop 2007], 12, 2015) := by decide

/-- V12: a late edge, 61 samples after the falling one, ends the attempt; V8: so does a short pulse. -/
theorem test_scanBit_flags_errors :
    after (exec .scanBit { std .high 2000 [2030, 2091, 2121] true with fsm := 0b0001 })
      (fun s => (s.trace, s.fsm, s.edge.pending)) = some ([.marker .error 2015], 0b0110, [2091, 2121]) ∧
    after (exec .scanBit { std .high 2000 [2007, 2040, 2070] true with fsm := 0b0001 })
      (fun s => (s.trace, s.fsm)) = some ([.marker .error 2003], 0b0110) := by decide

/-- V20: 1269 closes the window at 769 samples; 1268 does not. -/
theorem test_tlmRecord_closes_the_window :
    after (exec .tlmRecord { std .high 500 [1269] true with fsm := 0b0010, tlmStart := 500, tlmLog := [⟨.high, 500⟩] })
      (fun s => (s.tlmEnd, s.fsm, s.tlmLog)) = some (1269, 0b0011, [⟨.high, 500⟩, ⟨.low, 1269⟩]) ∧
    after (exec .tlmRecord { std .high 500 [1268] true with fsm := 0b0010, tlmStart := 500, tlmLog := [⟨.high, 500⟩] })
      (fun s => (s.tlmEnd, s.fsm)) = some (0, 0b0010) := by decide

/-- R613: the log is full, so the edge stays. -/
theorem test_tlmRecord_overflows :
    after (exec .tlmRecord { std .high 500 [520] true with fsm := 0b0010, tlmLog := [⟨.high, 500⟩], tlmLogCap := some 1 })
      (fun s => (s.fsm, s.faultCode, s.edge.pending, s.tlmLog)) = some (0b1001, 1, [520], [⟨.high, 500⟩]) := by decide

/-- V21: a sample on a transition reads the later interval, and of equal timestamps the last. -/
theorem test_tlmSample_ties :
    let log : List LogEntry := [⟨.high, 500⟩, ⟨.low, 520⟩, ⟨.high, 540⟩, ⟨.low, 540⟩, ⟨.high, 1300⟩]
    after (exec .tlmSample (captured (std .high 1300 [] true) log 500 1300 0 0)) (fun s => (s.trace, s.tlmJ, s.tlmK)) =
      some ([.marker .zero 520], 1, 1) ∧
    after (exec .tlmSample (captured (std .high 1300 [] true) log 500 1300 1 1)) (fun s => (s.trace, s.tlmJ, s.tlmData)) =
      some ([.marker .zero 560], 3, 0) := by decide

/-- V22: a bidirectional capture is not inverted; sample 19 is the last. -/
theorem test_tlmSample_bidirectional :
    let log : List LogEntry := [⟨.low, 400⟩, ⟨.high, 420⟩, ⟨.low, 460⟩, ⟨.high, 480⟩, ⟨.low, 1200⟩]
    after (exec .tlmSample (captured (bidir .low 1200 [] true) log 400 1200 19 3)) (fun s => (s.trace, s.fsm, s.tlmData)) =
      some ([.marker .one 1180], 0b0100, 1) := by decide

/-- P2. -/
theorem test_emitTlm :
    after (exec .emitTlm { captured (bidir .low 4150 [] true) [] 3350 4150 19 0 with tlmData := 0x5a3c9 })
      (fun s => (s.trace, s.lastEnd, s.fsm)) =
    some ([.tlmFrame { data := 0x5a3c9, start := 3350, stop := 4150 }, .commitPacket, .commitResults], 4150, 0b0111) := by decide

/-- P1, and P4's CRC failure. -/
theorem test_emitCmd :
    after (exec .emitCmd { std .low 2615 [] true with word := 0xFFEE, frameStart := 2000 }) (fun s => (s.trace, s.lastEnd)) =
      some ([.cmdFrame { payload := 0x7ff, raw := 0xffee, crcOk := true, tlmReq := false, err := false, start := 2000, stop := 2615 },
        .commitPacket, .commitResults], 2615) ∧
    after (exec .emitCmd { std .low 2630 [] true with word := 0xFFEF, frameStart := 2000 }) (fun s => s.trace) =
      some [.marker .error 2630,
        .cmdFrame { payload := 0x7ff, raw := 0xffef, crcOk := false, tlmReq := false, err := true, start := 2000, stop := 2630 },
        .commitPacket, .commitResults] := by decide

/-- P3. -/
theorem test_emitAbort :
    after (exec .emitAbort { std .low 2284 [] true with word := 0x8200, frameStart := 2000 }) (fun s => (s.trace, s.lastEnd)) =
      some ([.cmdFrame errored, .commitPacket, .commitResults], 2284) := by decide

/-- P4: the cancel branch keeps the word; else the attempt starts afresh. -/
theorem test_checkpoint :
    after (exec .checkpoint { std .low 2630 [] true with word := 0xFFEF, bitIdx := 15, cancelReq := true }) State.status =
      some 0x20F8 ∧
    after (exec .checkpoint { std .low 2630 [] true with word := 0xFFEF, bitIdx := 15 }) (fun s => (s.fsm, s.word, s.bitIdx)) =
      some (0b0001, 0, 0) := by decide

theorem test_done_and_fault_stay :
    after (exec .done (std .low 0 [9] true)) (fun s => s.edge.pending) = some [9] ∧
    after (exec .fault (std .low 0 [9] true)) (fun s => s.edge.pending) = some [9] := by decide

/-- The reserved codes stop by name (R321, R310, R316, I10). -/
theorem test_reserved_codes_stop :
    faultOf (exec .reservedFsm1010 (std .low 0 [] true)) = some (.reservedState 10) ∧
    faultOf (exec .reservedTag101 (std .low 0 [] true)) = some (.reservedTag 5) ∧
    faultOf (exec (.markerReserved111 7) (std .low 0 [] true)) = some (.reservedClass 7) := by decide

/-- R311, R316: a record and a class row append the same marker; R300, R304: a word lands whole. -/
theorem test_values :
    after (exec (.marker .stop 2447) (std .low 0 [] true)) (fun s => s.trace) = some [.marker .stop 2447] ∧
    after (exec (.markerStop 2447) (std .low 0 [] true)) (fun s => s.trace) = some [.marker .stop 2447] ∧
    after (exec (.cmdWord 0x7FF 0 0xE) (std .low 0 [] true)) (fun s => s.word) = some 0xFFEE ∧
    after (exec (.tlmWord 0x5A3C9) (std .low 0 [] true)) (fun s => s.tlmData) = some 0x5A3C9 := by decide

/-- R103, R106: the reserved bits are ignored, and in a run the whole write is. -/
theorem test_cfgCtrl :
    after (exec (.cfgCtrl 1 1 2) State.reset) (fun s => s.cfgCtrl) = some 6 ∧
    after (exec (.cfgCtrl 0 1 3) (std .low 0 [] true)) (fun s => s.cfgCtrl) = some 2 := by decide

/-! ## Steps -/

/-- The machine runs the table word that stands where it fetches. -/
theorem test_step_runs_the_fetched_word :
    after (step (State.reset.withFetchWord 8 0b0111)) (fun s => (s.fsm, s.inReset)) = some (0b0001, false) ∧
    after (step (State.reset.withFetchWord 72 0x1f7c8)) (fun s => s.trace) = some [.marker .one 2015] ∧
    after (step (State.reset.withFetchWord 16 0xFFEE)) (fun s => s.word) = some 0xFFEE ∧
    after (step (State.reset.withFetchWord 32 6)) (fun s => (s.cfgCtrl, s.inReset)) = some (6, true) := by decide

/-- R611, section 2.1: `SR = 4799999` with `K = 1200` is refused. -/
theorem test_release_refuses_a_low_sample_rate :
    refusal (step { State.reset with cfgCtrl := 3, cfgSampleRate := 4799999, schedule := [.env .releaseReset] }) =
      some .configRefused := by decide

/-- R612: a stream that falls back is refused. -/
theorem test_attach_refuses_a_falling_stream :
    refusal (step { State.reset with schedule := [.env (.attach .low 0 [2030, 2000] true)] }) = some .streamIllFormed := by decide

/-- V25, P4: `CANCEL@1` is seen at the first checkpoint. -/
theorem test_cancel_at_lands_at_its_checkpoint :
    after (step { std .low 2615 [] true with fsm := 0b0111, cancelAt := some 1 }) (fun s => (s.fsm, s.stopCause)) =
      some (0b1000, 1) ∧
    after (step { std .low 2615 [] true with fsm := 0b0111, cancelAt := some 2 }) (fun s => (s.fsm, s.cancelAt)) =
      some (0b0001, some 1) := by decide

/-- I10: a state with the reserved `stop_cause` 3 is stuck, whatever its state code. -/
theorem test_reserved_stop_cause_is_stuck :
    faultOf (step { std .low 0 [2000, 2030] true with stopCause := 3 }) = some .reservedStopCause ∧
    faultOf (step { std .low 0 [] true with fsm := 0b1000, stopCause := 3 }) = some .reservedStopCause := by decide

/-! ## Witnesses: the hypotheses of each statement, met together -/

theorem witness_EncodeOfDecode :
    decode ⟨.fsm, 0b1111⟩ = .ok .reservedFsm1111 ∧ decode ⟨.cmdWord, 0xFFFF⟩ = .ok (.cmdWord 0x7FF 1 0xF) := by decide

theorem witness_MarkerClass : (3 : Nat) ≠ 4 ∧ (15 : Nat) ≠ 4 := by decide

theorem witness_DerivedConstants :
    { std .low 0 [] false with cfgCtrl := 3, cfgSampleRate := 4800000 }.configLegal = true ∧
    (std .low 0 [] false).bidir = false ∧ (bidir .low 0 [] false).bidir = true ∧
    State.reset.cfgCtrl.toNat % 4 = 0 ∧ { State.reset with cfgCtrl := 5 }.cfgCtrl.toNat % 4 = 1 ∧
    (std .low 0 [] false).cfgCtrl.toNat % 4 = 2 ∧ { State.reset with cfgCtrl := 7 }.cfgCtrl.toNat % 4 = 3 := by decide

theorem witness_StepRunsTheDecodedOperation :
    (let s := std .low 0 [2000] true
     s.inReset = false ∧ s.schedule = [] ∧ decode s.fetch = .ok .align ∧ s.stopCause ≠ 3) ∧
    (let s := { std .low 0 [2000] true with stopCause := 3, schedule := [.block] }
     s.inReset = false ∧ s.schedule = .block :: [] ∧ decode s.fetch = .ok .align ∧ s.stopCause = 3) ∧
    (let s := { std .low 0 [2000] true with fsm := 0b0111, cancelAt := some 1, schedule := [.block] }
     s.inReset = false ∧ s.schedule = .block :: [] ∧ decode s.fetch = .ok .checkpoint ∧ s.stopCause ≠ 3) ∧
    ((std .low 0 [] true).fsm ≠ Fsm.checkpoint ∧ { std .low 0 [] true with fsm := 0b0111 }.cancelAt = none) ∧
    (let s := { std .low 0 [] true with fsm := 0b0111, cancelAt := some 1 }
     s.fsm = Fsm.checkpoint ∧ s.cancelAt = some 1 ∧ (1 : Nat) ≤ 1) ∧
    (let s := { std .low 0 [] true with fsm := 0b0111, cancelAt := some 2 }
     s.fsm = Fsm.checkpoint ∧ s.cancelAt = some 2 ∧ (1 : Nat) < 2) := by decide

theorem witness_StepRunsTheValueAtAPort :
    (let s := { std .low 0 [] true with schedule := [.value ⟨.cmdWord, 0xFFEE⟩] }
     s.schedule = .value ⟨.cmdWord, 0xFFEE⟩ :: [] ∧ s.portOpen ⟨.cmdWord, 0xFFEE⟩ = true ∧
       decodePort ⟨.cmdWord, 0xFFEE⟩ = .ok (.cmdWord 0x7FF 0 0xE) ∧ s.stopCause ≠ 3) ∧
    (let s := { State.reset with schedule := [.value ⟨.cfgCtrl, 6⟩] }
     s.portOpen ⟨.cfgCtrl, 6⟩ = true ∧ decodePort ⟨.cfgCtrl, 6⟩ = .ok (.cfgCtrl 0 1 2) ∧ s.stopCause ≠ 3) ∧
    (let s := { std .low 0 [] true with stopCause := 3, schedule := [.value ⟨.cmdWord, 0xFFEE⟩] }
     s.schedule = .value ⟨.cmdWord, 0xFFEE⟩ :: [] ∧ s.portOpen ⟨.cmdWord, 0xFFEE⟩ = true ∧
       decodePort ⟨.cmdWord, 0xFFEE⟩ = .ok (.cmdWord 0x7FF 0 0xE) ∧ s.stopCause = 3) := by decide

theorem witness_AssertReset :
    { std .low 0 [2000] true with schedule := [.env .assertReset] }.schedule = .env .assertReset :: [] := by decide

theorem witness_BlockTakesNoStepInReset :
    (State.reset.inReset = true ∧ State.reset.schedule = []) ∧
    ({ State.reset with schedule := [.block] }.inReset = true ∧ { State.reset with schedule := [.block] }.schedule = .block :: []) :=
  by decide

/-- The bound of the legal sample rates at `K = 1200`, from both sides. -/
theorem witness_ReleaseStartsOnlyALegalRun :
    (let s := { State.reset with cfgCtrl := 3, cfgSampleRate := 4800000, schedule := [.env .releaseReset] }
     s.inReset = true ∧ s.schedule = .env .releaseReset :: [] ∧ s.cfgSampleRate.toNat ≥ 4000 * s.kbps) ∧
    (let s := { State.reset with cfgCtrl := 3, cfgSampleRate := 4799999, schedule := [.env .releaseReset] }
     s.inReset = true ∧ s.schedule = .env .releaseReset :: [] ∧ s.cfgSampleRate.toNat < 4000 * s.kbps) := by decide

theorem witness_OnlyWellFormedStreamsAreAttached :
    (let s := { State.reset with schedule := [.env (.attach .low 0 [0, 2000, 2000] true)] }
     s.inReset = true ∧ s.schedule = .env (.attach .low 0 [0, 2000, 2000] true) :: [] ∧
       List.Pairwise (· ≤ ·) ((0 : Sample) :: [0, 2000, 2000])) ∧
    (let s := { State.reset with schedule := [.env (.attach .low 1 [0] true)] }
     s.inReset = true ∧ s.schedule = .env (.attach .low 1 [0] true) :: [] ∧ ¬ List.Pairwise (· ≤ ·) ((1 : Sample) :: [0])) := by
  decide

theorem witness_EdgeSourceAppendsInOrder :
    (let s := { std .low 0 [2000] false with schedule := [.env (.edge 2000)] }
     s.schedule = .env (.edge 2000) :: [] ∧ s.edge.closed = false ∧ s.edge.lastGiven ≤ 2000) ∧
    (let s := { std .low 0 [2000] false with schedule := [.env (.edge 1999)] }
     s.schedule = .env (.edge 1999) :: [] ∧ s.edge.closed = false ∧ ¬ s.edge.lastGiven ≤ 1999) ∧
    { std .low 0 [2000] false with schedule := [.env .close] }.schedule = .env .close :: [] := by decide

theorem witness_HostWritesRegisters :
    { State.reset with schedule := [.env (.writeReg 0 6)] }.schedule = .env (.writeReg 0 (6 : BitVec 32).toNat) :: [] ∧
    { State.reset with schedule := [.env (.writeReg 1 24000000)] }.schedule =
      .env (.writeReg 1 (24000000 : BitVec 64).toNat) :: [] ∧
    { State.reset with schedule := [.env (.writeReg 2 3)] }.schedule = .env (.writeReg 2 3) :: [] ∧
    { std .low 0 [] true with schedule := [.env (.writeReg 5 1)] }.schedule = .env (.writeReg 5 (1 : BitVec 32).toNat) :: [] := by
  decide

theorem witness_HostReadsStatus :
    { State.reset with schedule := [.env (.writeReg 3 7)] }.schedule = .env (.writeReg 3 7) :: [] ∧
    { std .low 0 [] true with schedule := [.env (.writeReg 4 7)] }.schedule = .env (.writeReg 4 7) :: [] := by decide

theorem witness_AdvanceAndPeek :
    (std .low 0 [2000, 2030] true).edge.pending = 2000 :: [2030] ∧
    ((std .low 0 [] false).edge.pending = [] ∧ (std .low 0 [] false).edge.closed = false) ∧
    ((std .low 0 [] true).edge.pending = [] ∧ (std .low 0 [] true).edge.closed = true) ∧
    (nonDecreasing (std .low 0 [0] true).edge.curPos (std .low 0 [0] true).edge.pending = true ∧
      (std .low 0 [0] true).edge.advance = .ok 0 (std .high 0 [] true).edge) := by decide

theorem witness_SkipPassesAtMostOneEdge :
    (std .low 0 [2000, 2030] true).edge.skipInactive .low =
      .ok () { curPos := 2000, curLevel := .high, pending := [2030], closed := true } ∧
    (std .high 100 [130] true).edge.skipInactive .low = .ok () (std .high 100 [130] true).edge := by decide

/-- Waiting in the skip, for a transition, for the falling edge, and for the lookahead (V15). -/
theorem witness_MissingEdgeOnAnOpenStreamHolds :
    (let s := std .low 0 [] false
     s.edge.closed = false ∧ s.edge.pending = [] ∧ s.edge.curLevel = s.inact) ∧
    (let s := std .high 2000 [] false
     s.edge.closed = false ∧ s.edge.skipInactive s.inact = .ok () s.edge ∧
       inTlmWindow s.sampleRate (s.edge.curPos.toNat - s.lastEnd.toNat) = false ∧ s.edge.pending = []) ∧
    (let s := { std .high 2000 [2030] false with bitIdx := 14 }
     s.edge.closed = false ∧ s.edge.skipInactive s.inact = .ok () s.edge ∧
       inTlmWindow s.sampleRate (s.edge.curPos.toNat - s.lastEnd.toNat) = false ∧ s.edge.pending = [2030] ∧
       isShort s.spb ((2030 : Sample).toNat - s.edge.curPos.toNat) = false ∧ s.bitIdx.toNat < 15) := by decide

/-- The same three on a closed stream. -/
theorem witness_MissingEdgeOnAClosedStreamEndsTheRun :
    (let s := std .low 0 [] true
     s.edge.closed = true ∧ s.edge.pending = [] ∧ s.edge.curLevel = s.inact) ∧
    (let s := std .high 2000 [] true
     s.edge.closed = true ∧ s.edge.skipInactive s.inact = .ok () s.edge ∧
       inTlmWindow s.sampleRate (s.edge.curPos.toNat - s.lastEnd.toNat) = false ∧ s.edge.pending = []) ∧
    (let s := { std .high 2000 [2030] true with bitIdx := 14 }
     s.edge.closed = true ∧ s.edge.skipInactive s.inact = .ok () s.edge ∧
       inTlmWindow s.sampleRate (s.edge.curPos.toNat - s.lastEnd.toNat) = false ∧ s.edge.pending = [2030] ∧
       isShort s.spb ((2030 : Sample).toNat - s.edge.curPos.toNat) = false ∧ s.bitIdx.toNat < 15) := by decide

theorem witness_AlignStartsTheFirstAttempt :
    ((std .high 100 [] true).edge.curLevel = (std .high 100 [] true).act) ∧
    (let s := bidir .high 0 [2000] true
     s.edge.curLevel = s.inact ∧ s.edge.pending = 2000 :: []) ∧
    (let s := std .low 0 [] false
     s.edge.curLevel = s.inact ∧ s.edge.pending = [] ∧ s.edge.closed = false) ∧
    (let s := bidir .high 0 [] true
     s.edge.curLevel = s.inact ∧ s.edge.pending = [] ∧ s.edge.closed = true) := by decide

/-- The two ends of the gap window (W4), in both modes; and SCAN_BIT enters capture. -/
theorem witness_ScanBitOpensCaptureInTheWindow :
    ({ std .low 0 [361] true with fsm := 0b0001 }.fsm ≠ Fsm.tlmRecord ∧
      after (exec .scanBit { std .low 0 [361] true with fsm := 0b0001 }) (fun t => t.fsm) = some Fsm.tlmRecord) ∧
    (let s := std .low 0 [361] true
     let c : EdgeInput := { curPos := 361, curLevel := .high, pending := [], closed := true }
     s.edge.skipInactive s.inact = .ok () c ∧ 15 * s.sampleRate < 1000000 * (c.curPos.toNat - s.lastEnd.toNat) ∧
       1000000 * (c.curPos.toNat - s.lastEnd.toNat) < 45 * s.sampleRate) ∧
    (let s := { bidir .low 1079 [] true with bitIdx := 15 }
     s.edge.skipInactive s.inact = .ok () s.edge ∧ 15 * s.sampleRate < 1000000 * (s.edge.curPos.toNat - s.lastEnd.toNat) ∧
       1000000 * (s.edge.curPos.toNat - s.lastEnd.toNat) < 45 * s.sampleRate) := by decide

/-- Bit 0 with the shortest good pulse, the largest gap below the window, and the latest edge that is not late; and bit 15 with
the smallest gap above the window and no lookahead. -/
theorem witness_ScanBitReadsAGoodBit :
    (let s := std .high 360 [368, 428] true
     s.edge.skipInactive s.inact = .ok () s.edge ∧ s.edge.pending = 368 :: [428] ∧ 0 = s.bitIdx.toNat ∧
       8 = (368 : Sample).toNat - s.edge.curPos.toNat ∧ false = decide (2 * 8 > s.spb) ∧
       ¬ (15 * s.sampleRate < 1000000 * (s.edge.curPos.toNat - s.lastEnd.toNat) ∧
          1000000 * (s.edge.curPos.toNat - s.lastEnd.toNat) < 45 * s.sampleRate) ∧
       ¬ 5 * 8 < s.spb ∧ ¬ 2 * ((428 : Sample).toNat - (368 : Sample).toNat) > 3 * s.spb) ∧
    (let s := { std .high 1080 [1101] false with bitIdx := 15 }
     s.edge.skipInactive s.inact = .ok () s.edge ∧ s.edge.pending = 1101 :: [] ∧ 15 = s.bitIdx.toNat ∧
       21 = (1101 : Sample).toNat - s.edge.curPos.toNat ∧ true = decide (2 * 21 > s.spb) ∧
       ¬ (15 * s.sampleRate < 1000000 * (s.edge.curPos.toNat - s.lastEnd.toNat) ∧
          1000000 * (s.edge.curPos.toNat - s.lastEnd.toNat) < 45 * s.sampleRate) ∧
       ¬ 5 * 21 < s.spb ∧ ¬ (15 : Nat) < 15) := by decide

/-- A pulse of 7 samples at bit 15; and at bit 14 an edge that comes 61 samples later. -/
theorem witness_ScanBitFlagsAnErroredBit :
    (let s := { std .high 2000 [2007] true with bitIdx := 15 }
     s.edge.skipInactive s.inact = .ok () s.edge ∧ s.edge.pending = 2007 :: [] ∧ 15 = s.bitIdx.toNat ∧
       7 = (2007 : Sample).toNat - s.edge.curPos.toNat ∧
       ¬ (15 * s.sampleRate < 1000000 * (s.edge.curPos.toNat - s.lastEnd.toNat) ∧
          1000000 * (s.edge.curPos.toNat - s.lastEnd.toNat) < 45 * s.sampleRate) ∧ 5 * 7 < s.spb) ∧
    (let s := { std .high 2000 [2030, 2091] true with bitIdx := 14 }
     s.edge.skipInactive s.inact = .ok () s.edge ∧ s.edge.pending = 2030 :: [2091] ∧ 14 = s.bitIdx.toNat ∧
       30 = (2030 : Sample).toNat - s.edge.curPos.toNat ∧
       ¬ (15 * s.sampleRate < 1000000 * (s.edge.curPos.toNat - s.lastEnd.toNat) ∧
          1000000 * (s.edge.curPos.toNat - s.lastEnd.toNat) < 45 * s.sampleRate) ∧
       (14 : Nat) < 15 ∧ 2 * ((2091 : Sample).toNat - (2030 : Sample).toNat) > 3 * s.spb) := by decide

/-- The last free place of a finite log, and both sides of `TLM_MAX`. -/
theorem witness_TlmRecordLogsOneTransition :
    (let s := { std .high 500 [1268] true with tlmStart := 500, tlmLog := [⟨.high, 500⟩], tlmLogCap := some 2 }
     s.edge.pending = 1268 :: [] ∧ s.tlmLogCap = some 2 ∧ s.tlmLog.length < 2 ∧
       ¬ 1250 * s.kbps * ((1268 : Sample).toNat - s.tlmStart.toNat) > 24 * s.sampleRate) ∧
    (let s := { std .high 500 [1269] true with tlmStart := 500, tlmLog := [⟨.high, 500⟩] }
     s.edge.pending = 1269 :: [] ∧ s.tlmLogCap = none ∧
       1250 * s.kbps * ((1269 : Sample).toNat - s.tlmStart.toNat) > 24 * s.sampleRate) := by decide

theorem witness_TlmRecordOverflowFaults :
    let s := { std .high 500 [520] true with tlmLog := [⟨.high, 500⟩], tlmLogCap := some 1 }
    s.edge.pending = 520 :: [] ∧ s.tlmLogCap = some 1 ∧ 1 ≤ s.tlmLog.length := by decide

/-- The first and the last sample. -/
theorem witness_TlmSampleReadsOneBit :
    (let s := captured (std .high 1269 [] true) [⟨.high, 500⟩, ⟨.low, 1269⟩] 500 1269 0 0
     s.tlmLog[0]? = some ⟨.high, 500⟩ ∧ 0 = s.tlmK.toNat ∧ (0 : Nat) ≤ 19 ∧ true = decide (s.logLevel (s.walkTo 0) = .high)) ∧
    (let s := captured (std .high 1269 [] true) [⟨.high, 500⟩, ⟨.low, 1269⟩] 500 1269 19 0
     19 = s.tlmK.toNat ∧ (19 : Nat) ≤ 19 ∧ true = decide (s.logLevel (s.walkTo 19) = .high)) := by decide

/-- V21's log. -/
theorem witness_WalkFindsTheLargestInterval :
    let s := captured (std .high 1300 [] true) [⟨.high, 500⟩, ⟨.low, 520⟩, ⟨.high, 540⟩, ⟨.low, 540⟩, ⟨.high, 1300⟩] 500 1300 1 1
    (⟨.high, 500⟩ : LogEntry).t = s.tlmStart ∧
    List.Pairwise (fun a b => a.t ≤ b.t) s.tlmLog ∧ s.logRead s.tlmJ = some ⟨.low, 520⟩ ∧
      40 * ((520 : Sample).toNat - s.tlmStart.toNat) ≤ (2 * 0 + 1) * (s.tlmEnd.toNat - s.tlmStart.toNat) ∧
      s.logRead 3 = some ⟨.low, 540⟩ ∧
      40 * ((540 : Sample).toNat - s.tlmStart.toNat) ≤ (2 * 1 + 1) * (s.tlmEnd.toNat - s.tlmStart.toNat) := by decide

theorem witness_SamplePointsLieInTheWindow :
    let s := captured (std .high 1269 [] true) [] 500 1269 0 0
    s.tlmStart < s.tlmEnd ∧ (0 : Nat) ≤ 19 ∧ (19 : Nat) ≤ 19 := by decide

theorem witness_CheckpointPollsTheCancel :
    { std .low 0 [] true with cancelReq := true }.cancelReq = true ∧ (std .low 0 [] true).cancelReq = false := by decide

theorem witness_CfgCtrlIsWrittenOnlyInReset : State.reset.inReset = true ∧ (std .low 0 [] true).inReset = false := by decide

/-- ALIGN and SCAN_BIT answer a next state; SCAN_BIT at a bit other than 0. -/
theorem witness_AlignAndScanBitFrame :
    (after (exec .align (std .low 0 [2000] true)) fun s => s.fsm) = some 0b0001 ∧
    (after (exec .scanBit { std .high 2000 [2030, 2040] true with bitIdx := 3 }) fun s => s.bitIdx) = some 4 ∧
    { std .high 2000 [2030, 2040] true with bitIdx := 3 }.bitIdx ≠ 0 := by decide

theorem witness_TelemetryFrame :
    (after (exec .tlmRecord { std .high 500 [520] true with tlmLog := [⟨.high, 500⟩] }) fun s => s.tlmLog.length) = some 2 ∧
    (after (exec .tlmSample (captured (std .high 1269 [] true) [⟨.high, 500⟩, ⟨.low, 1269⟩] 500 1269 0 0)) fun s => s.tlmK) = some 1 ∧
    (after (exec .emitTlm (std .high 1269 [] true)) fun s => s.fsm) = some 0b0111 := by decide

theorem witness_FrameAssemblyFrame :
    (after (exec .emitCmd (std .low 2615 [] true)) fun s => s.lastEnd) = some 2615 ∧
    (after (exec .emitAbort (std .low 2284 [] true)) fun s => s.lastEnd) = some 2284 ∧
    (after (exec .checkpoint (std .low 2284 [] true)) fun s => s.fsm) = some 0b0001 ∧
    (after (exec .done (std .low 0 [] true)) fun s => s.edge.closed) = some true := by decide

/-- A step of a run, with the decoder next; the configuration and the trace are there to be kept. -/
theorem witness_steps_of_a_run :
    let s := { std .high 2000 [2030, 2040] true with fsm := 0b0001, trace := [.commitPacket] }
    s.inReset = false ∧ s.schedule = [] ∧
      after (step s) (fun t => (t.inReset, t.trace)) = some (false, [.commitPacket, .marker .one 2015]) := by decide

/-- TLM_RECORD about to close its window (V20), in a state that meets the capture's invariant. -/
theorem witness_TransitionTableIsComplete :
    let s := { std .high 500 [1269] true with fsm := 0b0010, tlmStart := 500, tlmLog := [⟨.high, 500⟩] }
    s.inReset = false ∧ s.schedule = [] ∧ s.CaptureOk ∧
      after (step s) (fun t => (t.fsm, t.tlmK)) = some (Fsm.tlmSample, 0) := by
  refine ⟨rfl, rfl, ⟨fun _ => ⟨⟨rfl, rfl, nofun⟩, rfl, rfl⟩, nofun, nofun⟩, by decide⟩

/-- The strobe and the input in a run; a count of 1, a count of 2, and a step that is no CHECKPOINT. -/
theorem witness_CancelLandsAtTheChosenCheckpoint :
    { std .low 0 [] true with schedule := [.env .cancel] }.schedule = .env .cancel :: [] ∧
    { std .low 0 [] true with schedule := [.env (.cancelAt 1)] }.schedule = .env (.cancelAt 1) :: [] ∧
    (let s := { std .low 0 [] true with fsm := 0b0111, cancelAt := some 1 }
     s.inReset = false ∧ s.schedule = [] ∧ s.stopCause ≠ 3 ∧ s.fsm = Fsm.checkpoint ∧ s.cancelAt = some 1 ∧ (1 : Nat) ≤ 1) ∧
    (let s := { std .low 0 [] true with fsm := 0b0111, cancelAt := some 2 }
     s.inReset = false ∧ s.schedule = [] ∧ s.stopCause ≠ 3 ∧ s.fsm = Fsm.checkpoint ∧ s.cancelAt = some 2 ∧ (1 : Nat) < 2 ∧
       s.cancelReq = false) ∧
    (let s := { std .low 0 [2000] true with cancelAt := some 1 }
     s.inReset = false ∧ s.schedule = [] ∧ s.fsm ≠ Fsm.checkpoint ∧ after (step s) (fun t => t.cancelAt) = some (some 1)) := by
  decide

theorem witness_LastEndIsWrittenByEmissionsOnly :
    let s := { std .low 2615 [] true with fsm := 0b0101 }
    s.lastEnd = 0 ∧ after (step s) (fun t => (t.inReset, t.lastEnd)) = some (false, 2615) := by decide

/-- The stop cause changes, each way into DONE; the fault code changes; DONE stays while an edge is appended. -/
theorem witness_DoneStaysUntilReset :
    (let s := std .low 0 [] true
     s.stopCause = 0 ∧ s.fsm ≠ Fsm.done ∧
       after (step s) (fun t => (t.inReset, t.stopCause, t.fsm)) = some (false, 2, Fsm.done)) ∧
    (let s := { std .low 0 [] true with fsm := 0b0111, cancelAt := some 1 }
     s.stopCause = 0 ∧ s.fsm ≠ Fsm.done ∧
       after (step s) (fun t => (t.inReset, t.stopCause, t.fsm)) = some (false, 1, Fsm.done)) ∧
    (let s := { std .high 500 [520] true with fsm := 0b0010, tlmLog := [⟨.high, 500⟩], tlmLogCap := some 1 }
     s.faultCode = 0 ∧ after (step s) (fun t => (t.inReset, t.faultCode)) = some (false, 1)) ∧
    (let s := { std .low 0 [] false with fsm := 0b1000, stopCause := 1, schedule := [.env (.edge 5)] }
     (∀ m ∈ s.schedule, m.ofSpec = true) ∧ s.inReset = false ∧ s.fsm = Fsm.done ∧
       after (step s) (fun t => (t.inReset, t.edge.pending)) = some (false, [5])) := by decide

theorem witness_CancelIsSticky :
    let s := { std .low 0 [] true with cancelReq := true, schedule := [.env (.writeReg 5 0)] }
    s.inReset = false ∧ s.schedule = .env (.writeReg 5 (0 : BitVec 32).toNat) :: [] ∧ s.cancelReq = true ∧ after (step s) (fun t => (t.inReset, t.cancelReq)) = some (false, true) ∧
      Instr.align ≠ Instr.checkpoint := by decide

theorem witness_EdgesAreConsumedInOrder :
    (after (exec .scanBit (std .low 0 [2000, 2030, 2040] true)) fun t => t.edge.pending) = some [2040] ∧
    nonDecreasing (std .low 0 [2000, 2030, 2040] true).edge.curPos (std .low 0 [2000, 2030, 2040] true).edge.pending = true := by
  decide

theorem witness_ResultDoesNotDependOnArrival :
    (let s := std .high 2000 [2030, 2040] false
     s.edge.closed = false ∧ holds .scanBit s = false) ∧
    (let s := std .low 0 [2000] false
     s.edge.closed = false ∧ holds .align s = false ∧ holds .tlmRecord s = false) := by decide

/-- A running state, SCAN_BIT next, that meets the invariant. -/
theorem witness_invariant_of_a_run : State.Inv { std .high 2000 [2030, 2040] true with fsm := 0b0001 } := by
  refine ⟨nofun, ?_, ?_, ?_, ?_, ?_⟩
  · exact ⟨by decide, by decide, by decide, by decide, by decide, by decide, Nat.two_pow_pos _, fun _ => by decide, nofun⟩
  · constructor <;> decide
  · constructor <;> intro h <;> cases h
  · intro _ j _
    simp [std, State.reset]
  · exact ⟨nofun, rfl, rfl⟩

/-- That state takes a step, so the invariant's premises and those of the decoder's progress hold together. -/
theorem witness_StepKeepsTheInvariant :
    State.Inv { std .high 2000 [2030, 2040] true with fsm := 0b0001 } ∧
    (after (step { std .high 2000 [2030, 2040] true with fsm := 0b0001 }) fun t => t.bitIdx) = some 1 :=
  ⟨witness_invariant_of_a_run, by decide⟩

theorem witness_DecoderNeverStops :
    State.CodesOk { std .high 2000 [2030, 2040] true with fsm := 0b0001 } ∧
    { std .high 2000 [2030, 2040] true with fsm := 0b0001 }.schedule = [] :=
  ⟨witness_invariant_of_a_run.codes, rfl⟩

theorem witness_UnboundedLogNeverFaults :
    let s := { std .high 500 [520] true with fsm := 0b0010 }
    s.tlmLogCap = none ∧ s.fsm ≠ Fsm.fault ∧ after (step s) (fun t => t.fsm) = some 0b0010 := by decide

end Sys2Proof.Tests
end

/-! # The first family of proofs: what every step keeps, the host's cancel, reset release and `STATUS` -/

namespace Sys2Proof

/-! ## What the decoder of a space accepts -/

theorem fits_eq_ok {width n : Nat} {d : Decoded} {i : Instr} (h : fits width n d = .ok i) : d = .ok i := by
  unfold fits at h
  split at h
  · exact h
  · cases h

/-- The encoder writes the state code that the decoder has read. -/
theorem encode_decodeFsm (c : BitVec 4) : encode (decodeFsm c) = ⟨.fsm, c.toNat⟩ := by
  revert c
  decide

theorem encode_space_of_decodeEvent {n : Nat} {i : Instr} (h : decodeEvent n = .ok i) : (encode i).space = .event := by
  unfold decodeEvent at h
  split at h <;> replace h := fits_eq_ok h
  case h_1 =>
    unfold decodeMarker at h
    split at h <;> cases h
    rfl
  all_goals cases h; rfl

theorem encode_space_of_decodeClassRow (r : BitVec 67) : (encode (decodeClassRow r)).space = .cls := by
  unfold decodeClassRow
  split <;> rfl

/-- What the decoder of a space accepts is an instruction of that space. -/
theorem encode_space_of_decode {c : CodeWord} {i : Instr} (h : decode c = .ok i) : (encode i).space = c.space := by
  obtain ⟨space, n⟩ := c
  cases space with
  | event => exact encode_space_of_decodeEvent h
  | fsm =>
    cases fits_eq_ok h
    rw [encode_decodeFsm]
  | cls =>
    cases fits_eq_ok h
    exact encode_space_of_decodeClassRow _
  | cmdWord | tlmWord | cfgCtrl =>
    cases fits_eq_ok h
    rfl

/-- No state code is accepted at a port (R322). -/
theorem encode_space_of_decodePort {c : CodeWord} {i : Instr} (h : decodePort c = .ok i) : (encode i).space ≠ .fsm := by
  unfold decodePort at h
  split at h
  · cases h
  · rwa [encode_space_of_decode h]

/-- Settles O1: the decoder on the words of the tables, bit by bit. -/
theorem writtenOutWordsDecode : Obligations.WrittenOutWordsDecode := by
  unfold Obligations.WrittenOutWordsDecode
  decide

namespace Machine

/-! ## The endings of an instruction -/

/-- CHECKPOINT under a set `cancel_req` ends the run (R558). -/
theorem execCheckpoint_of_cancelReq {s : State} (h : s.cancelReq = true) :
    execCheckpoint s = .next { s with stopCause := 1, fsm := Fsm.done } := if_pos h

/-- CHECKPOINT without a cancel starts the next attempt (R558). -/
theorem execCheckpoint_of_not_cancelReq {s : State} (h : s.cancelReq = false) : execCheckpoint s = .next s.startAttempt :=
  if_neg (by simp [h])

/-- The control register is written only in reset (R106). -/
theorem State.writeCfgCtrl_eq (s : State) (v : BitVec 32) :
    s.writeCfgCtrl v = { s with cfgCtrl := if s.inReset then v &&& 7 else s.cfgCtrl } := by
  unfold State.writeCfgCtrl
  split <;> rfl

/-- The operations that read the edge input. -/
def ReadsEdges (i : Instr) : Prop := i = .align ∨ i = .scanBit ∨ i = .tlmRecord

/-- `c` is where SCAN_BIT leaves the cursor after a pulse that rose at `r`, at most two edges on. -/
structure State.PulseRead (s : State) (r : Sample) (c : EdgeInput) : Prop where
  consumed : ∃ n, n ≤ 2 ∧ s.edge.Consumed c n
  ordered : nonDecreasing s.edge.curPos s.edge.pending = true → s.edge.curPos ≤ r ∧ r ≤ c.curPos

/-- `Completes i s t`: instruction `i` completes from `s` in `t`. One constructor per ending of a meaning that answers a next state,
with the ending's guards, so that a fact about every instruction is one case analysis. -/
inductive Completes : Instr → State → State → Prop where
  | held {i s} (hi : ReadsEdges i) (hh : holds i s = true) (hc : s.edge.closed = false) : Completes i s s
  | exhausted {i s} (hi : ReadsEdges i) (hc : s.edge.closed = true) (c : EdgeInput) (hn : ∃ n, n ≤ 2 ∧ s.edge.Consumed c n) :
      Completes i s (s.raiseExhausted c)
  | aligned {s} (c : EdgeInput) (hn : ∃ n, n ≤ 1 ∧ s.edge.Consumed c n) : Completes .align s { s.startAttempt with edge := c }
  | captureOpened {s} (c : EdgeInput) (hn : ∃ n, n ≤ 1 ∧ s.edge.Consumed c n)
      (hs : s.edge.skipInactive s.inact = .ok () c)
      (hw : inTlmWindow s.sampleRate (c.curPos.toNat - s.lastEnd.toNat) = true) :
      Completes .scanBit s { (s.leadingEdge c.curPos).openCapture s.act c.curPos with edge := c }
  | bitErrored {s} (r : Sample) (w : Nat) (c : EdgeInput) (hp : s.PulseRead r c) (hw : w = c.curPos.toNat - r.toNat) :
      Completes .scanBit s
        { (s.leadingEdge r).emit (.marker .error (markerPos r w)) with fsm := Fsm.emitAbort, edge := c }
  | lastBitRead {s} (r : Sample) (w : Nat) (c : EdgeInput) (hp : s.PulseRead r c) (hw : w = c.curPos.toNat - r.toNat)
      (hi : s.bitIdx.toNat = 15) :
      Completes .scanBit s
        { (s.leadingEdge r).emit (.marker (markerClass false 0 (isOne s.spb w)) (markerPos r w)) with
          word := setBit s.word 0 (isOne s.spb w), fsm := Fsm.emitCmd, edge := c }
  | bitRead {s} (r : Sample) (w : Nat) (c : EdgeInput) (hp : s.PulseRead r c) (hw : w = c.curPos.toNat - r.toNat)
      (hi : s.bitIdx.toNat < 15) :
      Completes .scanBit s
        { (s.leadingEdge r).emit (.marker (markerClass false (15 - s.bitIdx.toNat) (isOne s.spb w)) (markerPos r w)) with
          word := setBit s.word (15 - s.bitIdx.toNat) (isOne s.spb w), bitIdx := s.bitIdx + 1, edge := c }
  | overflowed {s} (cap : Nat) (hcap : s.tlmLogCap = some cap) (hle : cap ≤ s.tlmLog.length) :
      Completes .tlmRecord s s.raiseTlmLogOverflow
  | recorded {s} (u : Sample) (rest : List Sample) (hp : s.edge.pending = u :: rest)
      (hx : tlmExceeded s.sampleRate s.kbps (u.toNat - s.tlmStart.toNat) = false) :
      Completes .tlmRecord s { s with
        tlmLog := s.tlmLog ++ [{ level := s.edge.curLevel.other, t := u }],
        edge := { s.edge with curPos := u, curLevel := s.edge.curLevel.other, pending := rest } }
  | windowClosed {s} (u : Sample) (rest : List Sample) (hp : s.edge.pending = u :: rest)
      (hx : tlmExceeded s.sampleRate s.kbps (u.toNat - s.tlmStart.toNat) = true) :
      Completes .tlmRecord s { s with
        tlmLog := s.tlmLog ++ [{ level := s.edge.curLevel.other, t := u }], tlmEnd := u, fsm := Fsm.tlmSample,
        edge := { s.edge with curPos := u, curLevel := s.edge.curLevel.other, pending := rest } }
  | sampled {s} (l : Level) (hl : l = s.logLevel (s.walkTo s.tlmK.toNat)) (hk : s.tlmK.toNat ≠ 19) :
      Completes .tlmSample s
        { s.emit (.marker (if l = .high then .one else .zero) (s.tlmMarkerPos s.tlmK.toNat)) with
          tlmJ := s.walkTo s.tlmK.toNat, tlmData := setBit s.tlmData (19 - s.tlmK.toNat) (decide (l = .high)),
          tlmK := s.tlmK + 1 }
  | lastSampled {s} (l : Level) (hl : l = s.logLevel (s.walkTo s.tlmK.toNat)) (hk : s.tlmK.toNat = 19) :
      Completes .tlmSample s
        { s.emit (.marker (if l = .high then .one else .zero) (s.tlmMarkerPos s.tlmK.toNat)) with
          tlmJ := s.walkTo s.tlmK.toNat, tlmData := setBit s.tlmData (19 - s.tlmK.toNat) (decide (l = .high)),
          fsm := Fsm.emitTlm }
  | tlmEmitted {s} :
      Completes .emitTlm s (s.closeAttempt (.tlmFrame { data := s.tlmData, start := s.tlmStart, stop := s.tlmEnd }) s.tlmEnd)
  | cmdEmitted {s} (hok : crcOk s.word s.bidir = true) :
      Completes .emitCmd s
        (s.closeAttempt (.cmdFrame (commandFrame s.word true s.frameStart s.edge.curPos)) s.edge.curPos)
  | cmdRefuted {s} (hok : crcOk s.word s.bidir = false) :
      Completes .emitCmd s
        ((s.emit (.marker .error s.edge.curPos)).closeAttempt
          (.cmdFrame (commandFrame s.word false s.frameStart s.edge.curPos)) s.edge.curPos)
  | aborted {s} :
      Completes .emitAbort s
        (s.closeAttempt (.cmdFrame (commandFrame s.word false s.frameStart s.edge.curPos)) s.edge.curPos)
  | cancelled {s} (hq : s.cancelReq = true) : Completes .checkpoint s { s with stopCause := 1, fsm := Fsm.done }
  | nextAttempt {s} (hq : s.cancelReq = false) : Completes .checkpoint s s.startAttempt
  | stayed {i s} (hi : i = .done ∨ i = .fault) : Completes i s s
  | emitted {i s} (hi : (encode i).space ≠ .fsm) (e : Event) : Completes i s (s.emit e)
  | wordLoaded {i s} (hi : (encode i).space ≠ .fsm) (w : BitVec 16) : Completes i s { s with word := w }
  | dataLoaded {i s} (hi : (encode i).space ≠ .fsm) (d : BitVec 20) : Completes i s { s with tlmData := d }
  | configWritten {i s} (hi : (encode i).space ≠ .fsm) (v : BitVec 32) : Completes i s (s.writeCfgCtrl v)

theorem completes_align {s t : State} (h : execAlign s = .next t) : Completes .align s t := by
  obtain ⟨hh, hc, rfl⟩ | ⟨hc, rfl⟩ | ⟨c, n, hn, hcon, rfl⟩ := execAlign_cases h
  · exact .held (.inl rfl) hh hc
  · exact .exhausted (.inl rfl) hc _ ⟨0, by omega, .refl _⟩
  · exact .aligned c ⟨n, hn, hcon⟩

theorem completes_scanBit {s t : State} (h : execScanBit s = .next t) : Completes .scanBit s t := by
  obtain ⟨hh, hc, rfl⟩ | ⟨hc, c, n, hn, hcon, rfl⟩ | ⟨c, n, hn, hcon, -, hs, hw, rfl⟩ |
    ⟨r, w, err, c, n, -, hn, hcon, hord, hw, rfl⟩ := execScanBit_cases h
  · exact .held (.inr (.inl rfl)) hh hc
  · exact .exhausted (.inr (.inl rfl)) hc c ⟨n, hn, hcon⟩
  · exact .captureOpened c ⟨n, hn, hcon⟩ hs hw
  · have hp : s.PulseRead r c := ⟨⟨n, hn, hcon⟩, hord⟩
    obtain ⟨-, he⟩ | ⟨-, hi, he⟩ | ⟨-, hi, he⟩ := (s.leadingEdge r).closeBit_cases r w err <;> rw [he]
    · exact .bitErrored r w c hp hw
    · exact .lastBitRead r w c hp hw hi
    · exact .bitRead r w c hp hw hi

theorem completes_tlmRecord {s t : State} (h : execTlmRecord s = .next t) : Completes .tlmRecord s t := by
  obtain ⟨hh, hc, rfl⟩ | ⟨hc, rfl⟩ | ⟨cap, hcap, hle, rfl⟩ | ⟨u, rest, hp, rfl⟩ := execTlmRecord_cases h
  · exact .held (.inr (.inr rfl)) hh hc
  · exact .exhausted (.inr (.inr rfl)) hc _ ⟨0, by omega, .refl _⟩
  · exact .overflowed cap hcap hle
  · obtain ⟨hx, ht⟩ | ⟨hx, ht⟩ :=
      State.testWindow_cases { s with tlmLog := s.tlmLog ++ [{ level := s.edge.curLevel.other, t := u }] } u <;> rw [ht]
    · exact .recorded u rest hp hx
    · exact .windowClosed u rest hp hx

theorem completes_tlmSample {s t : State} (h : execTlmSample s = .next t) : Completes .tlmSample s t := by
  cases h
  obtain ⟨hk, ht⟩ | ⟨hk, ht⟩ :=
    s.closeSample_cases s.tlmK.toNat (s.walkTo s.tlmK.toNat) (s.logLevel (s.walkTo s.tlmK.toNat)) <;> rw [ht]
  · exact .lastSampled _ rfl hk
  · exact .sampled _ rfl hk

theorem completes_emitCmd {s t : State} (h : execEmitCmd s = .next t) : Completes .emitCmd s t := by
  cases h
  cases hok : crcOk s.word s.bidir with
  | true => exact .cmdEmitted hok
  | false => exact .cmdRefuted hok

theorem completes_checkpoint {s t : State} (h : execCheckpoint s = .next t) : Completes .checkpoint s t := by
  cases hq : s.cancelReq with
  | true =>
    cases (execCheckpoint_of_cancelReq hq).symm.trans h
    exact .cancelled hq
  | false =>
    cases (execCheckpoint_of_not_cancelReq hq).symm.trans h
    exact .nextAttempt hq

/-- Every instruction that answers a next state ends in one of the endings. -/
theorem completes_of_exec {i : Instr} {s t : State} (h : exec i s = .next t) : Completes i s t := by
  cases i with
  | align => exact completes_align h
  | scanBit => exact completes_scanBit h
  | tlmRecord => exact completes_tlmRecord h
  | tlmSample => exact completes_tlmSample h
  | emitCmd => exact completes_emitCmd h
  | checkpoint => exact completes_checkpoint h
  | emitTlm => cases h; exact .tlmEmitted
  | emitAbort => cases h; exact .aborted
  | done => cases h; exact .stayed (.inl rfl)
  | fault => cases h; exact .stayed (.inr rfl)
  | marker | cmdFrame | tlmFrame | commitPacket | commitResults | markerZero | markerOne | markerStart | markerStop
  | markerError => cases h; exact .emitted (by simp [encode]) _
  | cmdWord => cases h; exact .wordLoaded (by simp [encode]) _
  | tlmWord => cases h; exact .dataLoaded (by simp [encode]) _
  | cfgCtrl => cases h; exact .configWritten (by simp [encode]) _
  | reservedFsm1010 | reservedFsm1011 | reservedFsm1100 | reservedFsm1101 | reservedFsm1110 | reservedFsm1111
  | reservedTag101 | reservedTag110 | reservedTag111 | markerReserved101 | markerReserved110 | markerReserved111 => cases h

/-! ## What an instruction can write -/

/-- No other code is that of DONE (R320). -/
theorem fsm_ne_done :
    Fsm.align ≠ Fsm.done ∧ Fsm.scanBit ≠ Fsm.done ∧ Fsm.tlmRecord ≠ Fsm.done ∧ Fsm.tlmSample ≠ Fsm.done ∧
    Fsm.emitTlm ≠ Fsm.done ∧ Fsm.emitCmd ≠ Fsm.done ∧ Fsm.emitAbort ≠ Fsm.done ∧ Fsm.checkpoint ≠ Fsm.done ∧
    Fsm.fault ≠ Fsm.done := by decide

section
variable {i : Instr} {s t : State} (h : Completes i s t)
include h

/-- No instruction touches the reset line, `cancel_req`, the countdown of `CANCEL@n` or the schedule. -/
theorem Completes.control :
    t.inReset = s.inReset ∧ t.cancelReq = s.cancelReq ∧ t.cancelAt = s.cancelAt ∧ t.schedule = s.schedule := by
  cases h <;> simp [State.writeCfgCtrl_eq]

/-- In a run no instruction writes the configuration (R106). -/
theorem Completes.config (hr : s.inReset = false) :
    t.cfgCtrl = s.cfgCtrl ∧ t.cfgSampleRate = s.cfgSampleRate ∧ t.cfgLine = s.cfgLine := by
  cases h <;> simp [State.writeCfgCtrl_eq, hr]

/-- No instruction withdraws an event. -/
theorem Completes.trace_grows : s.trace <+: t.trace := by
  cases h <;> simp [State.writeCfgCtrl_eq]

/-- Only the three EMIT operations write `last_end` (R115). -/
theorem Completes.lastEnd :
    t.lastEnd = s.lastEnd ∨ ((i = .emitCmd ∨ i = .emitAbort) ∧ t.lastEnd = s.edge.curPos) ∨
    (i = .emitTlm ∧ t.lastEnd = s.tlmEnd) := by
  cases h with
  | cmdEmitted | cmdRefuted => exact .inr (.inl ⟨.inl rfl, rfl⟩)
  | aborted => exact .inr (.inl ⟨.inr rfl, rfl⟩)
  | tlmEmitted => exact .inr (.inr ⟨rfl, rfl⟩)
  | _ => exact .inl (by simp [State.writeCfgCtrl_eq])

/-- DONE is entered, with `stop_cause`, by a cancelled CHECKPOINT and by an exhausted operation only (R118). -/
theorem Completes.stopCause :
    (t.stopCause = s.stopCause ∧ (t.fsm = Fsm.done → s.fsm = Fsm.done)) ∨
    (t.fsm = Fsm.done ∧
      ((i = .checkpoint ∧ t.stopCause = 1 ∧ t.cancelReq = true) ∨
       (ReadsEdges i ∧ t.stopCause = 2 ∧ s.edge.closed = true))) := by
  cases h with
  | exhausted hi hc => exact .inr ⟨rfl, .inr ⟨hi, rfl, hc⟩⟩
  | cancelled hq => exact .inr ⟨rfl, .inl ⟨rfl, rfl, hq⟩⟩
  | _ => exact .inl (by simp [State.writeCfgCtrl_eq, fsm_ne_done])

/-- FAULT is entered, with `fault_code`, by an overflow only (R118, R613). -/
theorem Completes.faultCode : t.faultCode = s.faultCode ∨ (t.fsm = Fsm.fault ∧ t.faultCode = 1) := by
  cases h with
  | overflowed => exact .inr ⟨rfl, rfl⟩
  | _ => exact .inl (by simp [State.writeCfgCtrl_eq])

/-- DONE has no operation (R559). -/
theorem Completes.eq_of_done (hi : i = .done) : t = s := by
  subst hi
  cases h with
  | held | stayed => rfl
  | exhausted hi => simp [ReadsEdges] at hi
  | emitted hi | wordLoaded hi | dataLoaded hi | configWritten hi => exact absurd rfl hi

end

/-! ## What a step can do -/

/-- A scheduled move of another agent is the step. -/
theorem step_env {s : State} {m : EnvMove} {rest : List Move} (h : s.schedule = .env m :: rest) :
    step s = m.apply { s with schedule := rest } := by
  unfold step
  rw [h]

/-- With the decoder next, the step is the operation that `fsm` names, after the landing of a cancel (R322). -/
theorem step_decoder {s : State} (hr : s.inReset = false) (hs : s.schedule = []) (hc : s.stopCause ≠ 3) :
    step s = exec (decodeFsm s.fsm) s.landCancel := by
  have hblock : step s = blockStep s := by
    unfold step
    rw [hs]
  have hrun : blockStep s = runDecoded (.ok (decodeFsm s.fsm)) s.landCancel := by
    simp [blockStep, hr, decode_fetch]
  rw [hblock, hrun, runDecoded_ok (by rwa [State.landCancel_stopCause])]

/-- An operation with a state code runs only where its code stands in `fsm`. -/
theorem fsm_eq_of_launched {s : State} {i : Instr} {c : BitVec 4} {p : Prop}
    (hi : i = decodeFsm s.fsm ∨ ((encode i).space ≠ .fsm ∧ p)) (hc : encode i = ⟨.fsm, c.toNat⟩) : s.fsm = c := by
  obtain rfl | ⟨hi, -⟩ := hi
  · rw [encode_decodeFsm] at hc
    exact BitVec.eq_of_toNat_eq (CodeWord.mk.inj hc).2
  · exact absurd (congrArg CodeWord.space hc) hi

/-- The landing of a cancel sets `cancel_req` or leaves it, and writes nothing but it and the countdown. -/
theorem State.landCancel_eq (s : State) :
    ∃ q n, (s.cancelReq = true → q = true) ∧ s.landCancel = { s with cancelReq := q, cancelAt := n } := by
  obtain h | ⟨n, h⟩ | h := s.landCancel_cases
  · exact ⟨s.cancelReq, s.cancelAt, id, h⟩
  · exact ⟨s.cancelReq, some n, id, h⟩
  · exact ⟨true, none, fun _ => rfl, h⟩

/-- A move of another agent that leaves reset released writes no register of the decoder but `cancel_req`, which it does not clear,
and of the edge input it neither moves the cursor nor withdraws an edge. -/
theorem EnvMove.apply_outside_reset {m : EnvMove} {s t : State} (h : m.apply s = .next t) (ht : t.inReset = false) :
    ∃ r q n e, t = { s with inReset := r, cancelReq := q, cancelAt := n, edge := e } ∧
      (s.cancelReq = true → q = true) ∧ e.curPos = s.edge.curPos ∧ s.edge.pending <+: e.pending := by
  obtain rfl | rfl | ⟨-, rfl⟩ | ⟨hr, v, rfl⟩ | ⟨hr, v, rfl⟩ | ⟨hr, v, rfl⟩ | ⟨-, rfl⟩ | ⟨n, rfl⟩ | ⟨hr, c, -, rfl⟩ |
    ⟨u, -, -, rfl⟩ | rfl := EnvMove.apply_cases h
  · exact ⟨_, _, _, _, rfl, id, rfl, List.prefix_rfl⟩
  · cases ht
  · exact ⟨_, _, _, _, rfl, id, rfl, List.prefix_rfl⟩
  · cases hr.symm.trans ht
  · cases hr.symm.trans ht
  · cases hr.symm.trans ht
  · exact ⟨_, _, _, _, rfl, fun _ => rfl, rfl, List.prefix_rfl⟩
  · exact ⟨_, _, _, _, rfl, id, rfl, List.prefix_rfl⟩
  · cases hr.symm.trans ht
  · exact ⟨_, _, _, (s.arrive [u]).edge, rfl, id, rfl, List.prefix_append _ _⟩
  · exact ⟨_, _, _, _, rfl, id, rfl, List.prefix_rfl⟩

/-- Everything a step can do that ends with reset released. An instruction completes, from `s` with the schedule advanced and a
cancel perhaps landed; it is the one that `fsm` names, or a value that the schedule has placed at a port. Or another agent has
moved. -/
theorem step_outside_reset {s s' : State} (h : step s = .next s') (hr : s'.inReset = false) :
    (∃ i q n rest, (s.cancelReq = true → q = true) ∧
      (i = decodeFsm s.fsm ∨ ((encode i).space ≠ .fsm ∧ ∃ c, s.schedule = .value c :: rest)) ∧
      Completes i { s with cancelReq := q, cancelAt := n, schedule := rest } s') ∨
    ∃ r q n e rest, s' = { s with inReset := r, cancelReq := q, cancelAt := n, edge := e, schedule := rest } ∧
      (s.cancelReq = true → q = true) ∧ e.curPos = s.edge.curPos ∧ s.edge.pending <+: e.pending := by
  obtain ⟨rest, -, ⟨hin, rfl⟩ | ⟨-, -, hx⟩⟩ | ⟨c, i, rest, hs, -, -, hd, hx⟩ | ⟨m, rest, -, hx⟩ := step_cases h
  · cases hin.symm.trans hr
  · obtain ⟨q, n, hq, hl⟩ := State.landCancel_eq { s with schedule := rest }
    rw [hl] at hx
    exact .inl ⟨_, q, n, rest, hq, .inl rfl, completes_of_exec hx⟩
  · exact .inl ⟨i, s.cancelReq, s.cancelAt, rest, id, .inr ⟨encode_space_of_decodePort hd, c, hs⟩, completes_of_exec hx⟩
  · obtain ⟨r, q, n, e, rfl, he⟩ := EnvMove.apply_outside_reset hx hr
    exact .inr ⟨r, q, n, e, rest, rfl, he⟩

/-! ## What every step outside reset keeps -/

/-- Settles O46: outside reset neither an instruction nor a move of another agent writes the configuration. -/
theorem configurationIsFixedInARun : Obligations.ConfigurationIsFixedInARun := by
  intro s s' hr h hr'
  obtain ⟨i, q, n, rest, -, -, hx⟩ | ⟨r, q, n, e, rest, rfl, -⟩ := step_outside_reset h hr'
  · exact hx.config hr
  · exact ⟨rfl, rfl, rfl⟩

/-- Settles O47: the EMIT operations alone write `last_end`, and none of them is a value at a port. -/
theorem lastEndIsWrittenByEmissionsOnly : Obligations.LastEndIsWrittenByEmissionsOnly := by
  intro s s' h hr hne
  obtain ⟨i, q, n, rest, -, hi, hx⟩ | ⟨r, q, n, e, rest, rfl, -⟩ := step_outside_reset h hr
  · obtain hl | ⟨rfl | rfl, hl⟩ | ⟨rfl, hl⟩ := hx.lastEnd
    · exact absurd hl hne
    · exact .inl ⟨.inl (fsm_eq_of_launched hi rfl), hl⟩
    · exact .inl ⟨.inr (fsm_eq_of_launched hi rfl), hl⟩
    · exact .inr ⟨fsm_eq_of_launched hi rfl, hl⟩
  · exact absurd rfl hne

/-- Settles O48: no instruction withdraws an event, no other move touches the trace, and reset empties it. -/
theorem traceOnlyGrows : Obligations.TraceOnlyGrows := by
  constructor
  · intro s s' h hr
    obtain ⟨i, q, n, rest, -, -, hx⟩ | ⟨r, q, n, e, rest, rfl, -⟩ := step_outside_reset h hr
    · exact hx.trace_grows
    · exact List.prefix_rfl
  · intro s rest hs
    exact ⟨_, step_env hs, rfl⟩

/-- `stop_cause` changes, and DONE is entered, with the cause of R118. -/
theorem step_stopCause {s s' : State} (h : step s = .next s') (hr : s'.inReset = false)
    (hd : s'.stopCause ≠ s.stopCause ∨ (s.fsm ≠ Fsm.done ∧ s'.fsm = Fsm.done)) :
    s'.fsm = Fsm.done ∧
      ((s'.stopCause = 1 ∧ s.fsm = Fsm.checkpoint ∧ s'.cancelReq = true) ∨
       (s'.stopCause = 2 ∧ s.edge.closed = true ∧ (s.fsm = Fsm.align ∨ s.fsm = Fsm.scanBit ∨ s.fsm = Fsm.tlmRecord))) := by
  obtain ⟨i, q, n, rest, -, hi, hx⟩ | ⟨r, q, n, e, rest, rfl, -⟩ := step_outside_reset h hr
  · obtain ⟨hc, hf⟩ | ⟨hf, ⟨rfl, hc, hq⟩ | ⟨ho, hc, hcl⟩⟩ := hx.stopCause
    · obtain hd | ⟨hn, hd⟩ := hd
      · exact absurd hc hd
      · exact absurd (hf hd) hn
    · exact ⟨hf, .inl ⟨hc, fsm_eq_of_launched hi rfl, hq⟩⟩
    · refine ⟨hf, .inr ⟨hc, hcl, ?_⟩⟩
      obtain rfl | rfl | rfl := ho
      · exact .inl (fsm_eq_of_launched hi rfl)
      · exact .inr (.inl (fsm_eq_of_launched hi rfl))
      · exact .inr (.inr (fsm_eq_of_launched hi rfl))
  · exact absurd hd (by simp)

/-- `fault_code` changes with the entry into FAULT only (R118). -/
theorem step_faultCode {s s' : State} (h : step s = .next s') (hr : s'.inReset = false)
    (hd : s'.faultCode ≠ s.faultCode) : s'.fsm = Fsm.fault ∧ s'.faultCode = 1 := by
  obtain ⟨i, q, n, rest, -, -, hx⟩ | ⟨r, q, n, e, rest, rfl, -⟩ := step_outside_reset h hr
  · exact hx.faultCode.resolve_left hd
  · exact absurd rfl hd

/-- Under the spec's moves a run that has ended stays ended (R559). -/
theorem step_of_final {s s' : State} (hspec : s.specSchedule) (hf : s.final) (h : step s = .next s')
    (hr : s'.inReset = false) :
    s'.final ∧ s'.stopCause = s.stopCause ∧ s'.trace = s.trace ∧ s'.edge.curPos = s.edge.curPos ∧
      s.edge.pending <+: s'.edge.pending := by
  obtain ⟨i, q, n, rest, -, rfl | ⟨-, c, hs⟩, hx⟩ | ⟨r, q, n, e, rest, rfl, -, he⟩ := step_outside_reset h hr
  · obtain rfl := hx.eq_of_done (congrArg decodeFsm hf)
    exact ⟨hf, rfl, rfl, rfl, List.prefix_rfl⟩
  · cases hspec (.value c) (by simp [hs])
  · exact ⟨hf, rfl, rfl, he⟩

/-- Settles O49: `stop_cause` and `fault_code` are written on entry to DONE and FAULT, and a run that has ended stays so. -/
theorem doneStaysUntilReset : Obligations.DoneStaysUntilReset :=
  ⟨fun _ _ => step_stopCause, fun _ _ => step_faultCode, fun _ _ hspec _ hf => step_of_final hspec hf⟩

/-! ## Registers that an instruction does not read -/

@[simp] theorem mapNext_next (f : State → State) (s : State) : mapNext f (.next s) = .next (f s) := rfl

/-- Apply `f` to what a read of the edge input gives. -/
def EdgeRead.map {α β : Type} (f : α → β) : EdgeRead α → EdgeRead β
  | .ok a c => .ok (f a) c
  | .hold => .hold
  | .exhausted c => .exhausted c

@[simp] theorem EdgeRead.map_ok {α β : Type} (f : α → β) (a : α) (c : EdgeInput) :
    (EdgeRead.ok a c).map f = .ok (f a) c := rfl

/-- What is done to the result of a read may be done at its end. -/
theorem EdgeRead.map_bind {α β γ : Type} (x : EdgeRead α) (k : α → EdgeInput → EdgeRead β) (f : β → γ) :
    (x.bind k).map f = x.bind fun a c => (k a c).map f := by
  cases x <;> rfl

/-- `s` with other contents in the two registers that decoding does not read: `CFG_LINE` (R105), and `cancel_req`, which only
CHECKPOINT reads (R109). -/
def State.withUnread (line : Nat → Nat) (req : Bool → Bool) (s : State) : State :=
  { s with cfgLine := line s.cfgLine, cancelReq := req s.cancelReq }

section
variable (line : Nat → Nat) (req : Bool → Bool) (s : State)

theorem settle_withUnread {r r' : EdgeRead State} (h : r' = r.map (State.withUnread line req)) :
    settle (s.withUnread line req) r' = mapNext (State.withUnread line req) (settle s r) := by
  subst h
  cases r <;> rfl

theorem align_withUnread : (s.withUnread line req).align = s.align.map (State.withUnread line req) := by
  unfold State.align
  rw [EdgeRead.map_bind]
  rfl

theorem closeBit_withUnread (r : Sample) (w : Nat) (err : Bool) :
    (s.withUnread line req).closeBit r w err = (s.closeBit r w err).withUnread line req := by
  unfold State.closeBit
  simp only [apply_ite (State.withUnread line req)]
  rfl

theorem scanBit_withUnread : (s.withUnread line req).scanBit = s.scanBit.map (State.withUnread line req) := by
  unfold State.scanBit
  rw [EdgeRead.map_bind]
  congr 1
  funext _ c
  simp only [apply_ite (EdgeRead.map (State.withUnread line req)), EdgeRead.map_bind, EdgeRead.map_ok,
    ← closeBit_withUnread]
  rfl

theorem logAppend_withUnread (e : LogEntry) :
    (s.withUnread line req).logAppend e = (s.logAppend e).map (State.withUnread line req) := by
  unfold State.logAppend
  cases h : s.tlmLogCap <;> simp [State.withUnread, h, apply_ite]

theorem testWindow_withUnread (t : Sample) :
    (s.withUnread line req).testWindow t = (s.testWindow t).withUnread line req := by
  unfold State.testWindow
  rw [apply_ite (State.withUnread line req)]
  rfl

theorem tlmRecord_withUnread : (s.withUnread line req).tlmRecord = s.tlmRecord.map (State.withUnread line req) := by
  unfold State.tlmRecord
  rw [EdgeRead.map_bind]
  congr 1
  funext t c
  rw [logAppend_withUnread]
  cases s.logAppend { level := c.curLevel, t := t } with
  | none => rfl
  | some u => exact congrArg (EdgeRead.ok · c) (testWindow_withUnread line req u t)

theorem closeSample_withUnread (k j : Nat) (level : Level) :
    (s.withUnread line req).closeSample k j level = (s.closeSample k j level).withUnread line req := by
  unfold State.closeSample
  simp only [apply_ite (State.withUnread line req)]
  rfl

theorem walkTo_withUnread (k : Nat) : (s.withUnread line req).walkTo k = s.walkTo k := rfl

theorem logLevel_withUnread (j : Nat) : (s.withUnread line req).logLevel j = s.logLevel j := rfl

theorem execTlmSample_withUnread :
    execTlmSample (s.withUnread line req) = mapNext (State.withUnread line req) (execTlmSample s) := by
  have hk : (s.withUnread line req).tlmK = s.tlmK := rfl
  simp only [execTlmSample, hk, walkTo_withUnread, logLevel_withUnread, closeSample_withUnread, mapNext_next]

theorem crcMarker_withUnread (ok : Bool) (p : Sample) :
    (s.withUnread line req).crcMarker ok p = (s.crcMarker ok p).withUnread line req := by
  cases ok <;> rfl

theorem closeAttempt_withUnread (f : Event) (p : Sample) :
    (s.withUnread line req).closeAttempt f p = (s.closeAttempt f p).withUnread line req := rfl

theorem execEmitCmd_withUnread :
    execEmitCmd (s.withUnread line req) = mapNext (State.withUnread line req) (execEmitCmd s) := by
  simp only [execEmitCmd, crcMarker_withUnread, closeAttempt_withUnread, mapNext_next]
  rfl

theorem writeCfgCtrl_withUnread (v : BitVec 32) :
    (s.withUnread line req).writeCfgCtrl v = (s.writeCfgCtrl v).withUnread line req := by
  unfold State.writeCfgCtrl
  rw [apply_ite (State.withUnread line req)]
  rfl

/-- CHECKPOINT does not read the line. -/
theorem execCheckpoint_withUnread :
    execCheckpoint (s.withUnread line id) = mapNext (State.withUnread line id) (execCheckpoint s) := by
  unfold execCheckpoint
  rw [apply_ite (mapNext _)]
  rfl

/-- An instruction other than CHECKPOINT does the same whatever line is selected and whether a cancel is requested or not; CHECKPOINT
does the same whatever line is selected. -/
theorem exec_withUnread (i : Instr) (hi : i = .checkpoint → req = id) :
    exec i (s.withUnread line req) = mapNext (State.withUnread line req) (exec i s) := by
  cases i with
  | align => exact settle_withUnread line req s (align_withUnread line req s)
  | scanBit => exact settle_withUnread line req s (scanBit_withUnread line req s)
  | tlmRecord => exact settle_withUnread line req s (tlmRecord_withUnread line req s)
  | tlmSample => exact execTlmSample_withUnread line req s
  | emitCmd => exact execEmitCmd_withUnread line req s
  | cfgCtrl => exact congrArg Host.Outcome.next (writeCfgCtrl_withUnread line req s _)
  | checkpoint =>
    obtain rfl := hi rfl
    exact execCheckpoint_withUnread line s
  | _ => rfl

end

/-- Settles O51: no instruction reads `CFG_LINE`. -/
theorem lineIsReadByNoRule : Obligations.LineIsReadByNoRule :=
  fun i s v => exec_withUnread (fun _ => v) id s i fun _ => rfl

/-! ## Cancellation -/

/-- `cancel_req` is set in a run only (R102, R109). -/
theorem State.setCancel_eq (s : State) : s.setCancel = { s with cancelReq := s.cancelReq || !s.inReset } := by
  have hq : (s.cancelReq || !s.inReset) = if s.inReset then s.cancelReq else true := by cases s.inReset <;> simp
  unfold State.setCancel
  rw [hq]
  split <;> rfl

/-- A write of `CANCEL` sets `cancel_req` in a run, by writing 1 to bit 0 (R109). -/
theorem State.writeCancel_eq (s : State) (v : BitVec 32) :
    s.writeCancel v = { s with cancelReq := s.cancelReq || (!s.inReset && v.getLsbD 0) } := by
  unfold State.writeCancel
  rw [State.setCancel_eq]
  cases v.getLsbD 0 <;> simp

/-- `CANCEL` reads `cancel_req` in a run (R109). -/
theorem State.readReg_cancel {s : State} (h : s.inReset = false) : s.readReg 5 = some s.cancelReq.toNat := by
  cases hq : s.cancelReq <;> simp [State.readReg, State.cancelReg, h, hq]

/-- A count that has run down lands at CHECKPOINT (I13). -/
theorem State.landCancel_of_le_one {s : State} {n : Nat} (hf : s.fsm = Fsm.checkpoint) (hn : s.cancelAt = some n) (h : n ≤ 1) :
    s.landCancel = { s with cancelReq := true, cancelAt := none } := by
  simp [State.landCancel, hf, hn, h]

/-- A higher count goes down by one at CHECKPOINT (I13). -/
theorem State.landCancel_of_one_lt {s : State} {n : Nat} (hf : s.fsm = Fsm.checkpoint) (hn : s.cancelAt = some n) (h : 1 < n) :
    s.landCancel = { s with cancelAt := some (n - 1) } := by
  simp [State.landCancel, hf, hn, Nat.not_le.mpr h]

/-- The decoder's step at CHECKPOINT polls the cancel that has landed. -/
theorem step_checkpoint {s : State} (hr : s.inReset = false) (hs : s.schedule = []) (hc : s.stopCause ≠ 3)
    (hf : s.fsm = Fsm.checkpoint) : step s = execCheckpoint s.landCancel := by
  rw [step_decoder hr hs hc, hf]
  rfl

/-- Once set, `cancel_req` is cleared by reset only (R109). -/
theorem step_cancelReq {s s' : State} (h : step s = .next s') (hq : s.cancelReq = true) (hr : s'.inReset = false) :
    s'.cancelReq = true := by
  obtain ⟨i, q, n, rest, hsticky, -, hx⟩ | ⟨r, q, n, e, rest, rfl, hsticky, -⟩ := step_outside_reset h hr
  · obtain ⟨-, hq', -⟩ := hx.control
    rw [hq', hsticky hq]
  · exact hsticky hq

/-- Settles O50: a write of 1 sets the flag, no step but a reset clears it, and CHECKPOINT alone reads it. -/
theorem cancelIsStickyAndReadOnlyAtCheckpoint : Obligations.CancelIsStickyAndReadOnlyAtCheckpoint := by
  refine ⟨?_, fun s => State.readReg_cancel, fun s s' => step_cancelReq, ?_⟩
  · intro s rest v hr hs
    have hw : step s = .next (State.writeCancel { s with schedule := rest } (BitVec.ofNat 32 v.toNat)) := step_env hs
    simpa [State.writeCancel_eq, hr] using hw
  · intro i s q hi
    exact exec_withUnread id (fun _ => q) s i fun h => absurd h hi

/-- Away from CHECKPOINT the decoder's step leaves the countdown of `CANCEL@n` (I13). -/
theorem step_cancelAt {s s' : State} (hr : s.inReset = false) (hs : s.schedule = []) (hf : s.fsm ≠ Fsm.checkpoint)
    (h : step s = .next s') : s'.cancelAt = s.cancelAt := by
  obtain ⟨rest, -, ⟨hin, -⟩ | ⟨-, -, hx⟩⟩ | ⟨c, i, rest, hs', -⟩ | ⟨m, rest, hs', -⟩ := step_cases h
  · cases hr.symm.trans hin
  · have hl : State.landCancel { s with schedule := rest } = { s with schedule := rest } := State.landCancel_of_ne hf
    rw [hl] at hx
    obtain ⟨-, -, hn, -⟩ := (completes_of_exec hx).control
    exact hn
  · cases hs.symm.trans hs'
  · cases hs.symm.trans hs'

/-- Settles O58: the strobe, the countdown of `CANCEL@n`, and where it lands. -/
theorem cancelLandsAtTheChosenCheckpoint : Obligations.CancelLandsAtTheChosenCheckpoint := by
  refine ⟨?_, fun s rest n hs => step_env hs, ?_, fun s s' => step_cancelAt⟩
  · intro s rest hs
    have hw : step s = .next (State.setCancel { s with schedule := rest }) := step_env hs
    rw [hw, State.setCancel_eq]
  · intro s n hr hs hc hf hn
    rw [step_checkpoint hr hs hc hf]
    constructor
    · intro h
      rw [State.landCancel_of_le_one hf hn h]
      exact execCheckpoint_of_cancelReq rfl
    · intro h hq
      rw [State.landCancel_of_one_lt hf hn h]
      exact execCheckpoint_of_not_cancelReq hq

/-! ## Configuration and status -/

/-- `K` is one of the four rates (R103). -/
theorem kbpsOfRate_cases (rate : BitVec 2) :
    kbpsOfRate rate = 150 ∨ kbpsOfRate rate = 300 ∨ kbpsOfRate rate = 600 ∨ kbpsOfRate rate = 1200 := by
  revert rate
  decide

theorem State.configLegal_iff (s : State) : s.configLegal = true ↔ 4000 * s.kbps ≤ s.cfgSampleRate.toNat :=
  decide_eq_true_iff

theorem State.releaseReset_of_legal {s : State} (h : s.configLegal = true) :
    s.releaseReset = .next { s with inReset := false } := by
  simp [State.releaseReset, h]

theorem State.releaseReset_of_illegal {s : State} (hr : s.inReset = true) (h : s.configLegal = false) :
    s.releaseReset = .refused .configRefused := by
  simp [State.releaseReset, hr, h]

/-- Settles O14: the release samples the configuration. -/
theorem releaseStartsOnlyALegalRun : Obligations.ReleaseStartsOnlyALegalRun := by
  refine ⟨fun s => kbpsOfRate_cases _, fun s rest hr hs => ?_⟩
  have hstep : step s = State.releaseReset { s with schedule := rest } := step_env hs
  have hlegal := State.configLegal_iff { s with schedule := rest }
  rw [hstep]
  constructor
  · intro h
    exact State.releaseReset_of_legal (hlegal.mpr h)
  · intro h
    exact State.releaseReset_of_illegal hr (Bool.eq_false_iff.mpr (mt hlegal.mp (Nat.not_le.mpr h)))

/-- Six fields put one above the other are read back at their bits. -/
theorem extractLsb'_of_fields (z : BitVec 14) (f : BitVec 3) (c : BitVec 2) (k : BitVec 5) (b m : BitVec 4) :
    (z ++ f ++ c ++ k ++ b ++ m).extractLsb' 0 4 = m ∧ (z ++ f ++ c ++ k ++ b ++ m).extractLsb' 4 4 = b ∧
    (z ++ f ++ c ++ k ++ b ++ m).extractLsb' 8 5 = k ∧ (z ++ f ++ c ++ k ++ b ++ m).extractLsb' 13 2 = c ∧
    (z ++ f ++ c ++ k ++ b ++ m).extractLsb' 15 3 = f ∧ (z ++ f ++ c ++ k ++ b ++ m).extractLsb' 18 14 = z := by
  -- `Nat.reduceAdd` would add up the widths and hide the parts
  simp [-Nat.reduceAdd, BitVec.extractLsb'_append_eq_of_le, BitVec.extractLsb'_append_eq_right]

/-- Settles O18: `STATUS` is its fields, `MIN_SAMPLE_RATE` is computed, and a write of either is ignored. -/
theorem hostReadsStatus : Obligations.HostReadsStatus := by
  refine ⟨fun s => ⟨rfl, extractLsb'_of_fields 0 _ _ _ _ _⟩, fun s => rfl, ?_⟩
  rintro s rest n v (rfl | rfl) hs <;> exact step_env hs

end Machine

end Sys2Proof

/-! # The second family of proofs: reading the edge input, and records at the trace -/

namespace Sys2Proof

namespace Machine

/-! ## The next edge, and records -/

/-- Settles O19: `Advance()` and `Peek()` by the pending edges, and on a well-formed stream no edge lies before the cursor. -/
theorem advanceAndPeekReadTheNextEdge : Obligations.AdvanceAndPeekReadTheNextEdge := by
  refine ⟨fun c t rest hp => ⟨c.advance_cons hp, c.peek_cons hp⟩, fun c hp hc => ?_, fun c hp hc => ?_, ?_⟩
  · simp [EdgeInput.advance_nil hp, EdgeInput.peek_nil hp, hc]
  · simp [EdgeInput.advance_nil hp, EdgeInput.peek_nil hp, hc]
  · intro c c' t hord h
    obtain ⟨u, rest, hp, ha⟩ | ⟨-, -, ha⟩ | ⟨-, -, ha⟩ := c.advance_cases <;> cases ha.symm.trans h
    rw [hp, nonDecreasing_cons] at hord
    exact hord.1

/-- A record at the event output is appended to the trace and changes nothing else (R210). -/
theorem emitRecord_eq (e : Event) (s : State) : emitRecord e s = .next { s with trace := s.trace ++ [e] } := rfl

/-- Settles O37: every record, and every marker class with its sample, is one `emitRecord`. -/
theorem recordsAreAppendedToTheTrace : Obligations.RecordsAreAppendedToTheTrace := fun s =>
  ⟨fun c sample => emitRecord_eq (.marker c sample) s, fun f => emitRecord_eq (.cmdFrame f) s,
    fun f => emitRecord_eq (.tlmFrame f) s, emitRecord_eq .commitPacket s, emitRecord_eq .commitResults s,
    fun sample => emitRecord_eq (.marker .zero sample) s, fun sample => emitRecord_eq (.marker .one sample) s,
    fun sample => emitRecord_eq (.marker .start sample) s, fun sample => emitRecord_eq (.marker .stop sample) s,
    fun sample => emitRecord_eq (.marker .error sample) s⟩

/-! ## Edges that arrive behind the ones an operation reads -/

/-- `c` with the edges `ts` appended by the edge source: what `State.arrive` does to the edge input. -/
def EdgeInput.arrive (c : EdgeInput) (ts : List Sample) : EdgeInput := { c with pending := c.pending ++ ts }

/-- The next edge stays the next one. -/
theorem EdgeInput.arrive_pending_cons {c : EdgeInput} {t : Sample} {rest ts : List Sample} (h : c.pending = t :: rest) :
    (c.arrive ts).pending = t :: (rest ++ ts) := congrArg (· ++ ts) h

/-- Read `x` on an open stream and the same read `x'` with `ts` arrived behind the pending edges (R212): where `x` completes, the stream
is still open, and `x'` gives the result through `f` with `ts` still pending; where `x` holds nothing is said; and an open stream is
not exhausted. -/
def EdgeRead.KeptOnArrival {α : Type} (f : α → α) (ts : List Sample) (x x' : EdgeRead α) : Prop :=
  match x with
  | .ok a c => c.closed = false ∧ x' = .ok (f a) (c.arrive ts)
  | .hold => True
  | .exhausted _ => False

/-- Reads that are kept on arrival compose. -/
theorem EdgeRead.KeptOnArrival.bind {α β : Type} {f : α → α} {g : β → β} {ts : List Sample} {x x' : EdgeRead α}
    {k k' : α → EdgeInput → EdgeRead β} (hx : x.KeptOnArrival f ts x')
    (hk : ∀ a c, c.closed = false → (k a c).KeptOnArrival g ts (k' (f a) (c.arrive ts))) :
    (x.bind k).KeptOnArrival g ts (x'.bind k') := by
  cases x with
  | ok a c =>
    obtain ⟨hc, rfl⟩ := hx
    exact hk a c hc
  | hold => trivial
  | exhausted c => exact hx.elim

section
variable (ts : List Sample)

theorem EdgeInput.advance_keptOnArrival {c : EdgeInput} (hc : c.closed = false) :
    c.advance.KeptOnArrival id ts (c.arrive ts).advance := by
  obtain ⟨t, rest, hp, ha⟩ | ⟨-, hc', -⟩ | ⟨-, -, ha⟩ := c.advance_cases
  · rw [ha, EdgeInput.advance_cons (EdgeInput.arrive_pending_cons hp)]
    exact ⟨hc, rfl⟩
  · simp [hc] at hc'
  · rw [ha]
    trivial

theorem EdgeInput.peek_keptOnArrival {c : EdgeInput} (hc : c.closed = false) :
    c.peek.KeptOnArrival id ts (c.arrive ts).peek := by
  obtain ⟨t, rest, hp, ha⟩ | ⟨-, hc', -⟩ | ⟨-, -, ha⟩ := c.peek_cases
  · rw [ha, EdgeInput.peek_cons (EdgeInput.arrive_pending_cons hp)]
    exact ⟨hc, rfl⟩
  · simp [hc] at hc'
  · rw [ha]
    trivial

/-- The skip is at most one `Advance()`, taken or not by the level alone. -/
theorem EdgeInput.skipInactive_keptOnArrival {c : EdgeInput} (hc : c.closed = false) (inact : Level) :
    (c.skipInactive inact).KeptOnArrival id ts ((c.arrive ts).skipInactive inact) := by
  by_cases hl : c.curLevel = inact
  · rw [EdgeInput.skipInactive_inactive hl, EdgeInput.skipInactive_inactive (c := c.arrive ts) hl]
    exact (EdgeInput.advance_keptOnArrival ts hc).bind fun _ _ hc => ⟨hc, rfl⟩
  · rw [EdgeInput.skipInactive_active hl, EdgeInput.skipInactive_active (c := c.arrive ts) hl]
    exact ⟨hc, rfl⟩

variable (s : State)

theorem align_keptOnArrival (hc : s.edge.closed = false) :
    s.align.KeptOnArrival (State.arrive · ts) ts (s.arrive ts).align :=
  (EdgeInput.skipInactive_keptOnArrival ts hc s.inact).bind fun _ _ hc => ⟨hc, rfl⟩

/-- The lookahead is the one read of the error test. -/
theorem bitError_keptOnArrival (w : Nat) (f : Sample) {c : EdgeInput} (hc : c.closed = false) :
    (s.bitError w f c).KeptOnArrival id ts ((s.arrive ts).bitError w f (c.arrive ts)) := by
  unfold State.bitError
  rw [State.arrive_spb, State.arrive_bitIdx]
  split
  · exact ⟨hc, rfl⟩
  · split
    · exact (EdgeInput.peek_keptOnArrival ts hc).bind fun _ _ hc => ⟨hc, rfl⟩
    · exact ⟨hc, rfl⟩

theorem closeBit_arrive (r : Sample) (w : Nat) (err : Bool) :
    (s.arrive ts).closeBit r w err = (s.closeBit r w err).arrive ts := by
  unfold State.closeBit
  simp only [apply_ite (State.arrive · ts)]
  rfl

/-- SCAN_BIT reads in order the skip, the falling edge and the lookahead; each test between them is of what is read already. -/
theorem scanBit_keptOnArrival (hc : s.edge.closed = false) :
    s.scanBit.KeptOnArrival (State.arrive · ts) ts (s.arrive ts).scanBit := by
  refine (EdgeInput.skipInactive_keptOnArrival ts hc s.inact).bind fun _ c hc => ?_
  have hr : (c.arrive ts).curPos = c.curPos := rfl
  simp only [State.arrive_sampleRate, State.arrive_lastEnd, hr]
  split
  · exact ⟨hc, rfl⟩
  · refine (EdgeInput.advance_keptOnArrival ts hc).bind fun f c' hc => ?_
    refine (bitError_keptOnArrival ts (s.leadingEdge c.curPos) _ f hc).bind fun err _ hc => ⟨hc, ?_⟩
    exact congrArg (EdgeRead.ok · _) (closeBit_arrive ts (s.leadingEdge c.curPos) _ _ err)

theorem logAppend_arrive (e : LogEntry) : (s.arrive ts).logAppend e = (s.logAppend e).map (State.arrive · ts) := by
  unfold State.logAppend
  rw [State.arrive_tlmLogCap]
  cases s.tlmLogCap with
  | none => rfl
  | some cap =>
    simp only [apply_ite (Option.map (State.arrive · ts))]
    rfl

theorem testWindow_arrive (t : Sample) : (s.arrive ts).testWindow t = (s.testWindow t).arrive ts := by
  unfold State.testWindow
  rw [apply_ite (State.arrive · ts)]
  rfl

/-- TLM_RECORD reads one edge; an overflow gives it back in front of the ones that arrived. -/
theorem tlmRecord_keptOnArrival (hc : s.edge.closed = false) :
    s.tlmRecord.KeptOnArrival (State.arrive · ts) ts (s.arrive ts).tlmRecord := by
  refine (EdgeInput.advance_keptOnArrival ts hc).bind fun t c hc' => ?_
  have hl : (s.arrive ts).logAppend { level := (c.arrive ts).curLevel, t := id t } =
      (s.logAppend { level := c.curLevel, t := t }).map (State.arrive · ts) := logAppend_arrive ts s _
  rw [hl]
  cases s.logAppend { level := c.curLevel, t := t } with
  | none => exact ⟨hc, rfl⟩
  | some u => exact ⟨hc', congrArg (EdgeRead.ok · _) (testWindow_arrive ts u t)⟩

/-- An operation that does not hold ends the same, and what arrived is still pending. -/
theorem settle_arrive {r r' : EdgeRead State} (hr : r.KeptOnArrival (State.arrive · ts) ts r') (hh : r.isHold = false) :
    settle (s.arrive ts) r' = mapNext (State.arrive · ts) (settle s r) := by
  cases r with
  | ok u c =>
    obtain ⟨-, rfl⟩ := hr
    rfl
  | hold => cases hh
  | exhausted c => exact hr.elim

theorem closeSample_arrive (k j : Nat) (level : Level) :
    (s.arrive ts).closeSample k j level = (s.closeSample k j level).arrive ts := by
  unfold State.closeSample
  simp only [apply_ite (State.arrive · ts)]
  rfl

theorem crcMarker_arrive (ok : Bool) (p : Sample) : (s.arrive ts).crcMarker ok p = (s.crcMarker ok p).arrive ts := by
  cases ok <;> rfl

theorem execEmitCmd_arrive : execEmitCmd (s.arrive ts) = mapNext (State.arrive · ts) (execEmitCmd s) := by
  simp only [execEmitCmd, crcMarker_arrive, mapNext_next]
  rfl

theorem execCheckpoint_arrive : execCheckpoint (s.arrive ts) = mapNext (State.arrive · ts) (execCheckpoint s) := by
  unfold execCheckpoint
  rw [apply_ite (mapNext _)]
  rfl

theorem writeCfgCtrl_arrive (v : BitVec 32) : (s.arrive ts).writeCfgCtrl v = (s.writeCfgCtrl v).arrive ts := by
  rw [State.writeCfgCtrl_eq, State.writeCfgCtrl_eq]
  rfl

end

/-- Settles O53: the three operations that read edges read them from the front, and no other instruction looks at the pending
edges. -/
theorem resultDoesNotDependOnArrival : Obligations.ResultDoesNotDependOnArrival := by
  intro i s ts hc hh
  cases i with
  | align => exact settle_arrive ts s (align_keptOnArrival ts s hc) hh
  | scanBit => exact settle_arrive ts s (scanBit_keptOnArrival ts s hc) hh
  | tlmRecord => exact settle_arrive ts s (tlmRecord_keptOnArrival ts s hc) hh
  | tlmSample => exact congrArg Host.Outcome.next (closeSample_arrive ts s _ _ _)
  | emitCmd => exact execEmitCmd_arrive ts s
  | checkpoint => exact execCheckpoint_arrive ts s
  | cfgCtrl => exact congrArg Host.Outcome.next (writeCfgCtrl_arrive ts s _)
  | _ => rfl

end Machine

end Sys2Proof

/-! # The third family of proofs: the fields of the records, the decoder's dispatch, and the reserved codes -/

namespace Sys2Proof

/-! ## The fields of the long records

The records are read with `Nat.reduceAdd` off: it would add up the widths of the appended parts and hide them. -/

/-- R311: a `MARKER` record has its tag, its class and its sample at their bits. -/
theorem extractLsb'_encodeMarker (c : MarkerClass) (sample : Sample) :
    (encodeMarker c sample).extractLsb' 0 3 = 0b000 ∧ (encodeMarker c sample).extractLsb' 3 3 = c.code ∧
    (encodeMarker c sample).extractLsb' 6 64 = sample := by
  simp [encodeMarker, -Nat.reduceAdd, BitVec.extractLsb'_append_eq_of_le, BitVec.extractLsb'_append_eq_right]

/-- R312: a `CMD_FRAME` record has its tag and its fields of several bits at their bits. -/
theorem extractLsb'_encodeCmdFrame (f : CmdFrame) :
    (encodeCmdFrame f).extractLsb' 0 3 = 0b001 ∧ (encodeCmdFrame f).extractLsb' 3 11 = f.payload ∧
    (encodeCmdFrame f).extractLsb' 14 16 = f.raw ∧ (encodeCmdFrame f).extractLsb' 33 64 = f.start ∧
    (encodeCmdFrame f).extractLsb' 97 64 = f.stop := by
  simp [encodeCmdFrame, -Nat.reduceAdd, BitVec.extractLsb'_append_eq_of_le, BitVec.extractLsb'_append_eq_right]

/-- R312: a `CMD_FRAME` record has its three flags at bits 30 to 32. -/
theorem getLsbD_encodeCmdFrame (f : CmdFrame) :
    (encodeCmdFrame f).getLsbD 30 = f.crcOk ∧ (encodeCmdFrame f).getLsbD 31 = f.tlmReq ∧
    (encodeCmdFrame f).getLsbD 32 = f.err := by
  simp [encodeCmdFrame, -Nat.reduceAdd, -BitVec.getLsbD_eq_getElem, BitVec.getLsbD_append]

/-- R313: a `TLM_FRAME` record has its tag and its fields at their bits. -/
theorem extractLsb'_encodeTlmFrame (f : TlmFrame) :
    (encodeTlmFrame f).extractLsb' 0 3 = 0b010 ∧ (encodeTlmFrame f).extractLsb' 3 20 = f.data ∧
    (encodeTlmFrame f).extractLsb' 23 64 = f.start ∧ (encodeTlmFrame f).extractLsb' 87 64 = f.stop := by
  simp [encodeTlmFrame, -Nat.reduceAdd, BitVec.extractLsb'_append_eq_of_le, BitVec.extractLsb'_append_eq_right]

/-- Settles O4: the record that the encoder writes of each event is the witness, and its fields are read back one by one. -/
theorem recordFieldsStandAtTheirBits : Obligations.RecordFieldsStandAtTheirBits := by
  refine ⟨⟨rfl, rfl, rfl, rfl, rfl⟩, fun c sample => ⟨encodeMarker c sample, rfl, extractLsb'_encodeMarker c sample⟩,
    fun f => ⟨encodeCmdFrame f, rfl, ?_⟩, fun f => ⟨encodeTlmFrame f, rfl, extractLsb'_encodeTlmFrame f⟩⟩
  obtain ⟨htag, hpayload, hraw, hstart, hstop⟩ := extractLsb'_encodeCmdFrame f
  obtain ⟨hcrc, hreq, herr⟩ := getLsbD_encodeCmdFrame f
  exact ⟨htag, hpayload, hraw, hcrc, hreq, herr, hstart, hstop⟩

namespace Machine

/-! ## Dispatch -/

/-- With no move scheduled the decoder steps. -/
theorem step_of_schedule_nil {s : State} (h : s.schedule = []) : step s = blockStep s := by
  unfold step
  rw [h]

/-- The schedule's own move of the block is the decoder's step. -/
theorem step_of_schedule_block {s : State} {rest : List Move} (h : s.schedule = .block :: rest) :
    step s = blockStep { s with schedule := rest } := by
  unfold step
  rw [h]

/-- Outside reset the decoder runs the operation that it reads in `fsm`, or stops on the reserved `stop_cause` (R322, I10). -/
theorem blockStep_of_decode {s : State} {i : Instr} (hr : s.inReset = false) (hd : decode s.fetch = .ok i) :
    (s.stopCause ≠ 3 → blockStep s = exec i s.landCancel) ∧ (s.stopCause = 3 → blockStep s = .fault .reservedStopCause) := by
  have hrun : blockStep s = runDecoded (.ok i) s.landCancel := by simp [blockStep, hr, hd]
  rw [hrun, ← s.landCancel_stopCause]
  exact ⟨runDecoded_ok, runDecoded_stuck⟩

/-- Without a count no cancel lands. -/
theorem State.landCancel_of_none {s : State} (h : s.cancelAt = none) : s.landCancel = s := by
  simp [State.landCancel, h]

/-- Settles O10: the decoder's step is `blockStep`, and the landing of a cancel goes by where the block stands and by the count. -/
theorem stepRunsTheDecodedOperation : Obligations.StepRunsTheDecodedOperation := by
  refine ⟨?_, ?_, ?_, fun s n hf hn => ⟨State.landCancel_of_le_one hf hn, State.landCancel_of_one_lt hf hn⟩⟩
  · intro s i hr hs hd
    rw [step_of_schedule_nil hs]
    exact blockStep_of_decode hr hd
  · intro s i rest hr hs hd
    rw [step_of_schedule_block hs]
    exact blockStep_of_decode (s := { s with schedule := rest }) hr hd
  · rintro s (hf | hn)
    · exact State.landCancel_of_ne hf
    · exact State.landCancel_of_none hn

/-! ## The reserved codes -/

/-- Settles O40: the meaning of each reserved state code is its fault. -/
theorem reservedStateCodesStop : Obligations.ReservedStateCodesStop := fun _ => ⟨rfl, rfl, rfl, rfl, rfl, rfl⟩

/-- Settles O41: the meaning of each reserved tag and of each reserved class is its fault. -/
theorem reservedTagsAndClassesStop : Obligations.ReservedTagsAndClassesStop := fun _ =>
  ⟨rfl, rfl, rfl, fun _ => ⟨rfl, rfl, rfl⟩⟩

end Machine

end Sys2Proof

/-! # The fourth family of proofs: edge classification -/

namespace Sys2Proof

namespace Machine

/-! ## The tests in their default form -/

/-- R405. -/
theorem isOne_iff (spb w : Nat) : isOne spb w = true ↔ spb < 2 * w := by simp [isOne]

/-- R406. -/
theorem isShort_iff (spb w : Nat) : isShort spb w = true ↔ 5 * w < spb := by simp [isShort]

/-- R407. -/
theorem isLate_iff (spb d : Nat) : isLate spb d = true ↔ 3 * spb < 2 * d := by simp [isLate]

/-- R450. -/
theorem inTlmWindow_iff (sr gap : Nat) :
    inTlmWindow sr gap = true ↔ 15 * sr < 1000000 * gap ∧ 1000000 * gap < 45 * sr := by simp [inTlmWindow]

/-- A bit position other than that of the telemetry request has the class of its value (R408). -/
theorem markerClass_of_ne {pos : Nat} (h : pos ≠ 4) (bit : Bool) :
    markerClass false pos bit = if bit then .one else .zero := by
  simp [markerClass, h]

/-- Settles O5: each test is its cross-multiplied comparison, and the class goes by the error and then by the position. -/
theorem pulseTestsAndMarkerClass : Obligations.PulseTestsAndMarkerClass :=
  ⟨isOne_iff, isShort_iff, isLate_iff, fun _ _ => rfl, ⟨rfl, rfl⟩,
    fun _ h => ⟨markerClass_of_ne h true, markerClass_of_ne h false⟩⟩

/-! ## Derived constants -/

/-- `K` goes by `CFG_CTRL`'s two low bits (R103). -/
theorem State.kbps_eq {s : State} {n : Nat} (h : s.cfgCtrl.toNat % 4 = n) : s.kbps = kbpsOfRate (BitVec.ofNat 2 n) := by
  have hrate : s.cfgCtrl.extractLsb' 0 2 = BitVec.ofNat 2 n := BitVec.eq_of_toNat_eq (by simp [h.symm])
  rw [State.kbps, hrate]

/-- A legal sample rate is at least four samples per bit (R108, R400). -/
theorem State.four_le_spb {s : State} (h : s.configLegal = true) : 4 ≤ s.spb := by
  have hk : 0 < 1000 * s.kbps := by
    have := kbpsOfRate_cases (s.cfgCtrl.extractLsb' 0 2)
    unfold State.kbps
    omega
  have hsr : 4 * (1000 * s.kbps) ≤ s.sampleRate := by
    rw [← Nat.mul_assoc]
    exact s.configLegal_iff.mp h
  exact (Nat.le_div_iff_mul_le hk).mpr hsr

/-- Settles O7: `SPB` and the two levels by their definitions, its bound from the least legal rate, and `K` from the rate code. -/
theorem derivedConstants : Obligations.DerivedConstants := by
  refine ⟨fun s => ⟨rfl, State.four_le_spb⟩, fun s h => ?_, fun s h => ?_, fun _ => State.kbps_eq, fun _ => State.kbps_eq,
    fun _ => State.kbps_eq, fun _ => State.kbps_eq⟩
  · simp [State.act, State.inact, h]
  · simp [State.act, State.inact, h]

/-! ## ALIGN -/

/-- ALIGN is the skip loop, and then the first attempt starts (R403). -/
theorem exec_align_eq (s : State) :
    exec .align s = settle s ((s.edge.skipInactive s.inact).bind fun _ c => .ok s.startAttempt c) := rfl

/-- Settles O23: the skip passes no edge at the active level, and at the inactive level it is one `Advance()`. -/
theorem alignStartsTheFirstAttempt : Obligations.AlignStartsTheFirstAttempt := by
  refine ⟨fun s hl => ?_, fun s t rest hl hp => ?_, fun s hl hp hc => ?_, fun s hl hp hc => ⟨s.raiseExhausted s.edge, ?_, ?_⟩⟩
  · have hne : s.edge.curLevel ≠ s.inact := by simp [hl, State.act_eq]
    rw [exec_align_eq, EdgeInput.skipInactive_active hne]
    rfl
  · rw [exec_align_eq, EdgeInput.skipInactive_inactive hl, EdgeInput.advance_cons hp, hl, ← State.act_eq]
    rfl
  · simp [exec_align_eq, EdgeInput.skipInactive_inactive hl, EdgeInput.advance_nil hp, hc]
  · simp [exec_align_eq, EdgeInput.skipInactive_inactive hl, EdgeInput.advance_nil hp, hc]
  · exact ⟨rfl, rfl, rfl, rfl, rfl, rfl⟩

/-! ## SCAN_BIT outside the telemetry window -/

/-- An errored bit: a short pulse, or before the last bit a late edge (R404, R602). -/
theorem State.bitError_of_errored {s : State} {w : Nat} {f : Sample} {c : EdgeInput}
    (h : 5 * w < s.spb ∨ (s.bitIdx.toNat < 15 ∧ ∃ n rest, c.pending = n :: rest ∧ 3 * s.spb < 2 * (n.toNat - f.toNat))) :
    s.bitError w f c = .ok true c := by
  simp only [← isShort_iff, ← isLate_iff] at h
  obtain hs | ⟨hi, n, rest, hp, hl⟩ := h
  · simp [State.bitError, hs]
  · simp [State.bitError, hi, EdgeInput.peek_cons hp, hl]

/-- A good bit: the pulse is not short, and before the last bit there is a next edge, which is not late (R404, R602). -/
theorem State.bitError_of_good {s : State} {w : Nat} {f : Sample} {c : EdgeInput} (hs : ¬ 5 * w < s.spb)
    (hl : s.bitIdx.toNat < 15 → ∃ n rest, c.pending = n :: rest ∧ ¬ 3 * s.spb < 2 * (n.toNat - f.toNat)) :
    s.bitError w f c = .ok false c := by
  simp only [← isShort_iff, ← isLate_iff] at hs hl
  by_cases hi : s.bitIdx.toNat < 15
  · obtain ⟨n, rest, hp, hl⟩ := hl hi
    simp [State.bitError, hs, hi, EdgeInput.peek_cons hp, hl]
  · simp [State.bitError, hs, hi]

/-- SCAN_BIT on a pulse from `c` to `f` whose gap lies outside the telemetry window: the cursor goes to the falling edge, and the
bit is closed with what its error test finds there (R404). -/
theorem execScanBit_of_pulse {s : State} {c c' : EdgeInput} {f : Sample} {rest : List Sample} {err : Bool}
    (hskip : s.edge.skipInactive s.inact = .ok () c) (hp : c.pending = f :: rest)
    (hgap : ¬ (15 * s.sampleRate < 1000000 * (c.curPos.toNat - s.lastEnd.toNat) ∧
      1000000 * (c.curPos.toNat - s.lastEnd.toNat) < 45 * s.sampleRate))
    (hc' : c' = { c with curPos := f, curLevel := s.inact, pending := rest })
    (herr : s.bitError (f.toNat - c.curPos.toNat) f c' = .ok err c') :
    execScanBit s =
      .next { (s.leadingEdge c.curPos).closeBit c.curPos (f.toNat - c.curPos.toNat) err with edge := c' } := by
  rw [← inTlmWindow_iff] at hgap
  have hlevel : c.curLevel.other = s.inact := by simp [(EdgeInput.skipInactive_ok hskip).1]
  obtain ⟨_, h, -⟩ | ⟨h, -⟩ | ⟨_, h, ⟨hw, -⟩ | ⟨-, ⟨hnil, -⟩ | ⟨hnil, -⟩ | ⟨_, _, hcons, hscan⟩⟩⟩ := s.scanBit_cases <;>
    cases hskip.symm.trans h
  · exact absurd hw hgap
  · cases hp.symm.trans hnil
  · cases hp.symm.trans hnil
  · cases hp.symm.trans hcons
    have hb : (s.leadingEdge c.curPos).bitError (f.toNat - c.curPos.toNat) f c' = .ok err c' := herr
    rw [execScanBit, hscan, hlevel, ← hc', hb, EdgeRead.bind_ok, settle_ok]

/-- A good bit is closed with its marker, in `word[15 - i]`, and the scan goes on to the next bit or to EMIT_CMD (R404, R411). -/
theorem State.closeBit_good (s : State) (r : Sample) (w : Nat) :
    s.closeBit r w false =
      { s.emit (.marker (markerClass false (15 - s.bitIdx.toNat) (isOne s.spb w)) (markerPos r w)) with
        word := setBit s.word (15 - s.bitIdx.toNat) (isOne s.spb w),
        fsm := if s.bitIdx.toNat = 15 then Fsm.emitCmd else s.fsm,
        bitIdx := if s.bitIdx.toNat = 15 then s.bitIdx else s.bitIdx + 1 } := by
  by_cases hi : s.bitIdx.toNat = 15 <;> simp [State.closeBit, hi]

/-- Settles O25: the error test finds nothing, and the bit is closed as a good one. -/
theorem scanBitReadsAGoodBit : Obligations.ScanBitReadsAGoodBit := by
  rintro s c f rest i w bit hskip hp rfl rfl hbit hgap hshort hnext
  obtain rfl : bit = isOne s.spb (f.toNat - c.curPos.toNat) := by
    rw [hbit, Bool.eq_iff_iff, isOne_iff, decide_eq_true_iff]
  refine ⟨_, execScanBit_of_pulse hskip hp hgap rfl (State.bitError_of_good hshort hnext), ?_⟩
  rw [State.closeBit_good]
  refine ⟨rfl, fun j => getLsbD_setBit _ _ j _ (by omega), rfl, ?_, rfl, rfl, ?_⟩
  · simp [BitVec.toNat_eq]
  · by_cases hi : s.bitIdx.toNat = 15
    · simp [hi]
    · have hlt := s.bitIdx.isLt
      simp [hi, BitVec.toNat_add, Nat.mod_eq_of_lt (show s.bitIdx.toNat + 1 < 16 by omega)]

/-- Settles O26: the error test finds the error, and the bit is closed with the ERROR marker. -/
theorem scanBitFlagsAnErroredBit : Obligations.ScanBitFlagsAnErroredBit := by
  rintro s c f rest i w hskip hp rfl rfl hgap herr
  exact execScanBit_of_pulse hskip hp hgap rfl (State.bitError_of_errored herr)

end Machine

end Sys2Proof

/-! # The fifth family of proofs: telemetry capture -/

namespace Sys2Proof

namespace Machine

/-! ## The window limits in their default form -/

/-- R451. -/
theorem tlmExceeded_iff (sr kbps e : Nat) : tlmExceeded sr kbps e = true ↔ 24 * sr < 1250 * kbps * e := by
  have hdef : tlmExceeded sr kbps e = true ↔ 20 * 6 * 4 * sr < 1000 * 5 * 5 * kbps * e := decide_eq_true_iff
  have hscale : 1000 * 5 * 5 * kbps * e = 20 * (1250 * kbps * e) := by ring
  rw [hdef, hscale]
  omega

/-- Settles O6: each limit is its cross-multiplied comparison. -/
theorem telemetryWindowsAreExact : Obligations.TelemetryWindowsAreExact := ⟨inTlmWindow_iff, tlmExceeded_iff⟩

/-! ## Opening the capture -/

/-- No other code is that of TLM_RECORD (R320). -/
theorem fsm_ne_tlmRecord :
    Fsm.align ≠ Fsm.tlmRecord ∧ Fsm.scanBit ≠ Fsm.tlmRecord ∧ Fsm.tlmSample ≠ Fsm.tlmRecord ∧
    Fsm.emitTlm ≠ Fsm.tlmRecord ∧ Fsm.emitCmd ≠ Fsm.tlmRecord ∧ Fsm.emitAbort ≠ Fsm.tlmRecord ∧
    Fsm.checkpoint ≠ Fsm.tlmRecord ∧ Fsm.done ≠ Fsm.tlmRecord ∧ Fsm.fault ≠ Fsm.tlmRecord := by decide

/-- TLM_RECORD is entered by SCAN_BIT at a gap in the window only (R452). -/
theorem Completes.captureOpens {i : Instr} {s t : State} (h : Completes i s t) (hs : s.fsm ≠ Fsm.tlmRecord)
    (ht : t.fsm = Fsm.tlmRecord) :
    i = .scanBit ∧ ∃ c, s.edge.skipInactive s.inact = .ok () c ∧
      inTlmWindow s.sampleRate (c.curPos.toNat - s.lastEnd.toNat) = true := by
  cases h with
  | captureOpened c _ hskip hw => exact ⟨rfl, c, hskip, hw⟩
  | _ => exact absurd ht (by simp [State.writeCfgCtrl_eq, fsm_ne_tlmRecord, hs])

/-- SCAN_BIT at a leading edge whose gap lies in the window opens the capture there (R404, R452). -/
theorem execScanBit_of_window {s : State} {c : EdgeInput} (hskip : s.edge.skipInactive s.inact = .ok () c)
    (hgap : inTlmWindow s.sampleRate (c.curPos.toNat - s.lastEnd.toNat) = true) :
    execScanBit s = .next { (s.leadingEdge c.curPos).openCapture s.act c.curPos with edge := c } := by
  have hlevel : c.curLevel = s.act := by rw [(EdgeInput.skipInactive_ok hskip).1, State.act_eq]
  obtain ⟨_, h, -⟩ | ⟨h, -⟩ | ⟨_, h, ⟨-, hscan⟩ | ⟨hw, -⟩⟩ := s.scanBit_cases <;> cases hskip.symm.trans h
  · rw [execScanBit, hscan, hlevel, settle_ok]
  · cases hw.symm.trans hgap

/-- Settles O24: of the endings of all instructions one enters TLM_RECORD, and it is SCAN_BIT's at a gap in the window. -/
theorem scanBitOpensCaptureInTheWindow : Obligations.ScanBitOpensCaptureInTheWindow :=
  ⟨fun _ _ _ h => (completes_of_exec h).captureOpens,
    fun _ _ hskip hlow hhigh => execScanBit_of_window hskip ((inTlmWindow_iff _ _).mpr ⟨hlow, hhigh⟩)⟩

/-! ## TLM_RECORD -/

/-- TLM_RECORD with an edge pending and room in the log: the edge is logged, and then the window is tested (R453). -/
theorem execTlmRecord_of_room {s : State} {t : Sample} {rest : List Sample} (hp : s.edge.pending = t :: rest)
    (hroom : ∀ cap, s.tlmLogCap = some cap → s.tlmLog.length < cap) :
    execTlmRecord s = .next
      { State.testWindow { s with tlmLog := s.tlmLog ++ [{ level := s.edge.curLevel.other, t := t }] } t with
        edge := { s.edge with curPos := t, curLevel := s.edge.curLevel.other, pending := rest } } := by
  obtain ⟨_, _, hcons, -, h⟩ | ⟨cap, -, hcap, hle, -⟩ | ⟨hnil, -⟩ | ⟨hnil, -⟩ := s.tlmRecord_cases
  · cases hp.symm.trans hcons
    rw [execTlmRecord, h, settle_ok]
  · exact absurd (hroom cap hcap) (Nat.not_lt.mpr hle)
  · cases hp.symm.trans hnil
  · cases hp.symm.trans hnil

/-- Settles O27: the append is TLM_RECORD's with room in the log, and the window test closes the window or changes nothing. -/
theorem tlmRecordLogsOneTransition : Obligations.TlmRecordLogsOneTransition := by
  intro s t rest hp hroom
  refine ⟨_, execTlmRecord_of_room hp hroom, ?_⟩
  have hlimit := tlmExceeded_iff s.sampleRate s.kbps (t.toNat - s.tlmStart.toNat)
  obtain ⟨hx, ht⟩ | ⟨hx, ht⟩ :=
    State.testWindow_cases { s with tlmLog := s.tlmLog ++ [{ level := s.edge.curLevel.other, t := t }] } t
  · have hin : ¬ 24 * s.sampleRate < 1250 * s.kbps * (t.toNat - s.tlmStart.toNat) :=
      mt hlimit.mpr (Bool.eq_false_iff.mp hx)
    rw [ht]
    exact ⟨rfl, rfl, rfl, fun hout => absurd hout hin, fun _ => ⟨rfl, rfl⟩⟩
  · rw [ht]
    exact ⟨rfl, rfl, rfl, fun _ => ⟨rfl, rfl⟩, fun hin => absurd (hlimit.mp hx) hin⟩

/-! ## Sample points -/

/-- A sample point lies before the window's end (R454). -/
theorem samplePoint40_lt {k d : Nat} (hk : k ≤ 19) (hd : 0 < d) : samplePoint40 k d < 40 * d :=
  Nat.mul_lt_mul_of_pos_right (by omega) hd

/-- The sample points rise (R454). -/
theorem samplePoint40_lt_succ {d : Nat} (k : Nat) (hd : 0 < d) : samplePoint40 k d < samplePoint40 (k + 1) d :=
  Nat.mul_lt_mul_of_pos_right (by omega) hd

/-- The marker position of a sample point that lies before the window's end does not wrap around. -/
theorem State.toNat_tlmMarkerPos {s : State} {k : Nat} (h : samplePoint40 k s.tlmDuration < 40 * s.tlmDuration) :
    (s.tlmMarkerPos k).toNat = s.tlmStart.toNat + samplePoint40 k s.tlmDuration / 40 := by
  have hend := s.tlmEnd.isLt
  rw [State.tlmMarkerPos, BitVec.toNat_ofNat]
  apply Nat.mod_eq_of_lt
  unfold State.tlmDuration at *
  omega

/-- Settles O31: a sample point lies before the window's end, and the floor of its distance stays below the duration. -/
theorem samplePointsLieInTheWindow : Obligations.SamplePointsLieInTheWindow := by
  intro s k hlt hk
  have hd : s.tlmDuration = s.tlmEnd.toNat - s.tlmStart.toNat := rfl
  rw [BitVec.lt_def] at hlt
  have hpoint : samplePoint40 k s.tlmDuration < 40 * s.tlmDuration := samplePoint40_lt hk (by omega)
  have hpos := State.toNat_tlmMarkerPos hpoint
  rw [BitVec.le_def, BitVec.lt_def, hpos]
  exact ⟨by omega, by omega, hpoint, samplePoint40_lt_succ k (by omega)⟩

/-! ## The forward walk -/

/-- The forward walk stops at an entry that lies at or before the limit, and the entry after it, if there is one, does not
(R455). -/
theorem walkLog_stops {start : Sample} {limit : Nat} {log rest : List LogEntry} {j : Nat} {e : LogEntry}
    (hrest : rest = log.drop (j + 1)) (hj : log[j]? = some e) (he : 40 * (e.t.toNat - start.toNat) ≤ limit) :
    (∃ x, log[walkLog start limit j rest]? = some x ∧ 40 * (x.t.toNat - start.toNat) ≤ limit) ∧
    ∀ y, log[walkLog start limit j rest + 1]? = some y → limit < 40 * (y.t.toNat - start.toNat) := by
  induction rest generalizing j e with
  | nil =>
    have hend : log[j + 1]? = none := List.getElem?_eq_none (List.drop_eq_nil_iff.mp hrest.symm)
    exact ⟨⟨e, hj, he⟩, fun y hy => by cases hend.symm.trans hy⟩
  | cons n rest ih =>
    have hn : log[j + 1]? = some n := by rw [← List.head?_drop, ← hrest, List.head?_cons]
    by_cases hle : 40 * (n.t.toNat - start.toNat) ≤ limit
    · have htail : rest = log.drop (j + 1 + 1) := by rw [← List.tail_drop, ← hrest, List.tail_cons]
      rw [walkLog, if_pos hle]
      exact ih htail hn hle
    · rw [walkLog, if_neg hle]
      refine ⟨⟨e, hj, he⟩, fun y hy => ?_⟩
      cases hn.symm.trans hy
      exact Nat.lt_of_not_le hle

/-- On an ordered log a later index has no earlier timestamp. -/
theorem t_le_of_pairwise {log : List LogEntry} (h : log.Pairwise fun a b => a.t ≤ b.t) {i j : Nat} {a b : LogEntry}
    (ha : log[i]? = some a) (hb : log[j]? = some b) (hij : i ≤ j) : a.t ≤ b.t := by
  obtain ⟨hi, rfl⟩ := List.getElem?_eq_some_iff.mp ha
  obtain ⟨hj, rfl⟩ := List.getElem?_eq_some_iff.mp hb
  obtain rfl | hlt := Nat.eq_or_lt_of_le hij
  · exact BitVec.le_refl _
  · exact List.pairwise_iff_getElem.mp h i j hi hj hlt

/-- Settles O30: the entry after the one where the walk stops lies after the sample point, and on an ordered log so do all that
follow it. -/
theorem walkFindsTheLargestInterval : Obligations.WalkFindsTheLargestInterval := by
  refine ⟨fun s k e he => by simp [he], fun s k => le_walkLog _ _ _ _, fun s k e hord hj he => ?_⟩
  obtain ⟨⟨x, hx, hle⟩, hnext⟩ := walkLog_stops (limit := samplePoint40 k s.tlmDuration) rfl hj he
  refine ⟨x, hx, hle, fun j y hy hyle => ?_⟩
  by_contra hlater
  have hj' : s.walkTo k + 1 ≤ j := Nat.lt_of_not_le hlater
  have hlen : s.walkTo k + 1 < s.tlmLog.length := Nat.lt_of_le_of_lt hj' (List.getElem?_eq_some_iff.mp hy).1
  obtain ⟨n, hn⟩ : ∃ n, s.tlmLog[s.walkTo k + 1]? = some n := ⟨_, List.getElem?_eq_getElem hlen⟩
  have hafter : samplePoint40 k s.tlmDuration < 40 * (n.t.toNat - s.tlmStart.toNat) := hnext n hn
  have hbefore : 40 * (y.t.toNat - s.tlmStart.toNat) ≤ samplePoint40 k s.tlmDuration := hyle
  have hty : n.t.toNat ≤ y.t.toNat := t_le_of_pairwise hord hn hy hj'
  omega

/-! ## TLM_SAMPLE -/

/-- TLM_SAMPLE emits the marker, stores the data bit and the read cursor, and goes on to the next sample or to EMIT_TLM (R455). -/
theorem State.closeSample_eq (s : State) (k j : Nat) (level : Level) :
    s.closeSample k j level =
      { s.emit (.marker (if decide (level = .high) then .one else .zero) (s.tlmMarkerPos k)) with
        tlmJ := j, tlmData := setBit s.tlmData (19 - k) (decide (level = .high)),
        fsm := if k = 19 then Fsm.emitTlm else s.fsm, tlmK := if k = 19 then s.tlmK else s.tlmK + 1 } := by
  by_cases hk : k = 19 <;> simp [State.closeSample, hk]

/-- Settles O29: the sample is closed with the level of the entry that the walk reaches. -/
theorem tlmSampleReadsOneBit : Obligations.TlmSampleReadsOneBit := by
  refine ⟨fun s j e h => State.logLevel_of_read h, ?_⟩
  rintro s k bit rfl hk rfl
  refine ⟨_, congrArg Host.Outcome.next (s.closeSample_eq _ _ _), rfl,
    fun j => getLsbD_setBit _ _ j _ (by omega), rfl, rfl, ?_⟩
  by_cases h19 : s.tlmK.toNat = 19
  · simp [h19]
  · simp [h19, BitVec.toNat_add, Nat.mod_eq_of_lt (show s.tlmK.toNat + 1 < 32 by omega)]

/-! ## EMIT_TLM -/

/-- The end of a scan attempt, with its three events in a row (R555). -/
theorem State.closeAttempt_eq (s : State) (frame : Event) (p : Sample) :
    s.closeAttempt frame p =
      { s with trace := s.trace ++ [frame, .commitPacket, .commitResults], lastEnd := p, fsm := Fsm.checkpoint } := by
  simp [State.closeAttempt, State.emit]

/-- Settles O32: EMIT_TLM is the end of the attempt with the telemetry frame, at `tlm_end`. -/
theorem emitTlmEmitsTheFrame : Obligations.EmitTlmEmitsTheFrame := fun s =>
  congrArg Host.Outcome.next (s.closeAttempt_eq _ s.tlmEnd)

end Machine

end Sys2Proof

/-! # The sixth family of proofs: the CRC nibble and its verdict -/

namespace Sys2Proof

namespace Machine

/-! ## Nibbles of a word -/

/-- The low nibble of a word, widened again, is the word under the mask `0xF`. -/
theorem setWidth_setWidth_four_eq_and (x : BitVec 16) : (x.setWidth 4).setWidth 16 = x &&& 0xF := by
  apply BitVec.eq_of_toNat_eq
  have hlow : x.toNat % 2 ^ 4 < 2 ^ 16 := Nat.lt_trans (Nat.mod_lt _ (by decide)) (by decide)
  rw [BitVec.toNat_setWidth, BitVec.toNat_setWidth, Nat.mod_eq_of_lt hlow, BitVec.toNat_and]
  exact (Nat.and_two_pow_sub_one_eq_mod x.toNat 4).symm

/-- Widening keeps two nibbles apart. -/
theorem setWidth_sixteen_inj {a b : BitVec 4} : a.setWidth 16 = b.setWidth 16 ↔ a = b :=
  ⟨fun h => by simpa using congrArg (BitVec.setWidth 4) h, congrArg _⟩

/-- The transmitted nibble is the word cut to four bits (R303). -/
theorem crcNibbleOf_eq_setWidth (w : BitVec 16) : crcNibbleOf w = w.setWidth 4 :=
  (BitVec.setWidth_eq_extractLsb' (by decide)).symm

/-- The transmitted nibble of the complemented word is the nibble's complement. -/
theorem crcNibbleOf_not (w : BitVec 16) : crcNibbleOf (~~~w) = ~~~crcNibbleOf w :=
  BitVec.extractLsb'_not_of_lt (by decide)

/-- The transmitted nibble is what stands under the twelve high bits. -/
@[simp] theorem crcNibbleOf_append (hi : BitVec 12) (n : BitVec 4) : crcNibbleOf (hi ++ n) = n :=
  BitVec.extractLsb'_append_eq_right

/-! ## The computed nibble -/

/-- R500 by shifts: `crc4` is the low nibble of the word's three shifts. -/
theorem crc4_eq_setWidth (w : BitVec 16) : crc4 w = ((w >>> 4) ^^^ (w >>> 8) ^^^ (w >>> 12)).setWidth 4 := by
  simp only [crc4, BitVec.setWidth_xor, BitVec.setWidth_ushiftRight_eq_extractLsb]

/-- The transmitted nibble does not enter `crc4`: its three nibbles stand in the twelve high bits (R500). -/
theorem crc4_append_congr (hi : BitVec 12) (n m : BitVec 4) : crc4 (hi ++ n) = crc4 (hi ++ m) := by
  have hhigh (k : BitVec 4) (i : Nat) (hle : 4 ≤ i) : (hi ++ k).extractLsb' i 4 = hi.extractLsb' (i - 4) 4 :=
    BitVec.extractLsb'_append_eq_of_le hle
  have hcrc (k : BitVec 4) : crc4 (hi ++ k) = hi.extractLsb' 0 4 ^^^ hi.extractLsb' 4 4 ^^^ hi.extractLsb' 8 4 := by
    rw [crc4, hhigh k 4 (by decide), hhigh k 8 (by decide), hhigh k 12 (by decide)]
  rw [hcrc n, hcrc m]

/-! ## The verdict -/

/-- The normal mode asks for the computed nibble (R501). -/
theorem crcOk_false_iff (w : BitVec 16) : crcOk w false = true ↔ crcNibbleOf w = crc4 w := beq_iff_eq

/-- The bidirectional mode asks for the computed nibble in the complemented word (R501). -/
theorem crcOk_true_iff (w : BitVec 16) : crcOk w true = true ↔ crcNibbleOf (~~~w) = crc4 w := beq_iff_eq

/-- The bidirectional mode asks for the complement of the computed nibble (R502). -/
theorem crcOk_true_iff_eq_not (w : BitVec 16) : crcOk w true = true ↔ crcNibbleOf w = ~~~crc4 w := by
  rw [crcOk_true_iff, crcNibbleOf_not, BitVec.not_eq_comm]

/-- A nibble test compares the word's low bits under the mask with the nibble, widened. -/
theorem crcNibbleOf_eq_iff (w : BitVec 16) (c : BitVec 4) : crcNibbleOf w = c ↔ w &&& 0xF = c.setWidth 16 := by
  rw [crcNibbleOf_eq_setWidth, ← setWidth_sixteen_inj, setWidth_setWidth_four_eq_and]

/-- Settles O8: `crc4` is the low nibble of the shifts and does not read the transmitted one, and each verdict is a nibble test. -/
theorem crcNibbleAndVerdict : Obligations.CrcNibbleAndVerdict := by
  refine ⟨fun w => ?_, crc4_append_congr, fun w => ?_, fun w => ?_⟩
  · rw [crc4_eq_setWidth, setWidth_setWidth_four_eq_and]
  · rw [crcOk_false_iff, crcNibbleOf_eq_iff]
  · rw [crcOk_true_iff, crcNibbleOf_eq_iff]

/-- Settles O9: the normal mode asks for the computed nibble and the bidirectional mode for its complement, and neither depends on
the nibble that is transmitted. -/
theorem crcModesExcludeEachOther : Obligations.CrcModesExcludeEachOther := by
  refine ⟨fun w => ?_, fun w ⟨hnormal, hbidir⟩ => ?_, fun hi bidir => ?_⟩
  · have hmask : crc4 w ^^^ 0xF = ~~~crc4 w := BitVec.xor_allOnes
    rw [crcOk_true_iff_eq_not, hmask, crcNibbleOf]
  · have hsame : crc4 w = ~~~crc4 w :=
      ((crcOk_false_iff w).mp hnormal).symm.trans ((crcOk_true_iff_eq_not w).mp hbidir)
    exact BitVec.ne_not_self (by decide) hsame
  · cases bidir with
    | false =>
      exact ⟨crc4 (hi ++ 0#4), fun m => by
        rw [crcOk_false_iff, crcNibbleOf_append, crc4_append_congr hi m 0#4]⟩
    | true =>
      exact ⟨~~~crc4 (hi ++ 0#4), fun m => by
        rw [crcOk_true_iff_eq_not, crcNibbleOf_append, crc4_append_congr hi m 0#4]⟩

end Machine

end Sys2Proof

/-! # The seventh family of proofs: frame assembly, the transition table and the decoder's progress -/

namespace Sys2Proof

namespace Machine

/-! ## The emissions, CHECKPOINT, DONE and FAULT -/

/-- The ERROR marker is appended on a CRC mismatch only (R551, R604). -/
theorem State.crcMarker_eq (s : State) (ok : Bool) (p : Sample) :
    s.crcMarker ok p = { s with trace := s.trace ++ if ok then [] else [.marker .error p] } := by
  cases ok <;> simp [State.crcMarker, State.emit]

/-- Settles O33: EMIT_CMD is the end of the attempt with the command frame, after what a mismatch adds. -/
theorem emitCmdEmitsTheCheckedFrame : Obligations.EmitCmdEmitsTheCheckedFrame := by
  intro s
  have hexec : exec .emitCmd s = .next ((s.crcMarker (crcOk s.word s.bidir) s.edge.curPos).closeAttempt
      (.cmdFrame (commandFrame s.word (crcOk s.word s.bidir) s.frameStart s.edge.curPos)) s.edge.curPos) := rfl
  rw [hexec, State.closeAttempt_eq, State.crcMarker_eq]
  rfl

/-- Settles O34: EMIT_ABORT is the end of the attempt with the frame of the partial word. -/
theorem emitAbortEmitsThePartialFrame : Obligations.EmitAbortEmitsThePartialFrame := fun s =>
  congrArg Host.Outcome.next (s.closeAttempt_eq _ s.edge.curPos)

/-- Settles O35: the two ends of CHECKPOINT. -/
theorem checkpointPollsTheCancel : Obligations.CheckpointPollsTheCancel :=
  ⟨fun _ => execCheckpoint_of_cancelReq, fun _ => execCheckpoint_of_not_cancelReq⟩

/-- Settles O36: the meaning of each is the state as it was. -/
theorem doneAndFaultKeepTheState : Obligations.DoneAndFaultKeepTheState := fun _ => ⟨rfl, rfl⟩

/-! ## Progress of the decoder -/

/-- The reserved codes are read as the reserved instructions (R321). -/
theorem decodeFsm_of_reserved {c : BitVec 4} (h : 10 ≤ c.toNat) :
    decodeFsm c = .reservedFsm1010 ∨ decodeFsm c = .reservedFsm1011 ∨ decodeFsm c = .reservedFsm1100 ∨
    decodeFsm c = .reservedFsm1101 ∨ decodeFsm c = .reservedFsm1110 ∨ decodeFsm c = .reservedFsm1111 := by
  revert c
  decide

/-- A reserved state code has no next state (R321, I10). -/
theorem exec_ne_next_of_reserved {c : BitVec 4} (h : 10 ≤ c.toNat) (s t : State) : exec (decodeFsm c) s ≠ .next t := by
  obtain hi | hi | hi | hi | hi | hi := decodeFsm_of_reserved h <;> rw [hi] <;> exact nofun

/-- CHECKPOINT answers a next state, cancelled or not. -/
theorem execCheckpoint_next (s : State) : ∃ t, execCheckpoint s = .next t := by
  cases hq : s.cancelReq with
  | true => exact ⟨_, execCheckpoint_of_cancelReq hq⟩
  | false => exact ⟨_, execCheckpoint_of_not_cancelReq hq⟩

/-- The operation of every defined state code answers a next state: what reads the edge input settles, and the others have no
other end (R562). -/
theorem exec_next_of_defined {c : BitVec 4} (h : c.toNat ≤ 9) (s : State) : ∃ t, exec (decodeFsm c) s = .next t := by
  obtain rfl | rfl | rfl | rfl | rfl | rfl | rfl | rfl | rfl | rfl | hres := fsm_cases c
  · exact settle_next s s.align
  · exact settle_next s s.scanBit
  · exact settle_next s s.tlmRecord
  · exact ⟨_, rfl⟩
  · exact ⟨_, rfl⟩
  · exact ⟨_, rfl⟩
  · exact ⟨_, rfl⟩
  · exact execCheckpoint_next s
  · exact ⟨_, rfl⟩
  · exact ⟨_, rfl⟩
  · omega

/-- Settles O56: in reset no step is taken, and else a legal code is that of an operation that answers. -/
theorem decoderNeverStops : Obligations.DecoderNeverStops := by
  intro s hok hs
  cases hr : s.inReset with
  | true => exact ⟨s, by simp [step_of_schedule_nil hs, blockStep, hr]⟩
  | false =>
    have hc : s.stopCause ≠ 3 := fun h => absurd hok.stop_cause (by simp [h])
    rw [step_decoder hr hs hc]
    exact exec_next_of_defined hok.fsm_defined _

/-! ## The rows of the transition table (R560) -/

/-- The end that the operations reading the edge input share: DONE, on a closed stream (R605). -/
def State.EndsOnClosedStream (s t : State) : Prop := s.edge.closed = true ∧ t.fsm = Fsm.done ∧ t.stopCause = 2

theorem State.raiseExhausted_endsOnClosedStream {s : State} (h : s.edge.closed = true) (c : EdgeInput) :
    s.EndsOnClosedStream (s.raiseExhausted c) := ⟨h, rfl, rfl⟩

/-- The row of ALIGN. -/
theorem exec_align_row {s t : State} (h : exec .align s = .next t) :
    (t = s ∧ holds .align s = true) ∨ s.EndsOnClosedStream t ∨ (t.fsm = Fsm.scanBit ∧ t.bitIdx = 0) := by
  obtain ⟨hh, -, rfl⟩ | ⟨hc, rfl⟩ | ⟨c, n, -, -, rfl⟩ := execAlign_cases h
  · exact .inl ⟨rfl, hh⟩
  · exact .inr (.inl (s.raiseExhausted_endsOnClosedStream hc _))
  · exact .inr (.inr ⟨rfl, rfl⟩)

/-- A bit without an error has no ERROR marker (R408). -/
theorem markerClass_false_ne_error (pos : Nat) (bit : Bool) : markerClass false pos bit ≠ .error := by
  by_cases hp : pos = 4 <;> cases bit <;> simp [markerClass, hp]

/-- The rows of SCAN_BIT: capture, the abort, the next bit, the last bit. -/
theorem exec_scanBit_row {s t : State} (h : exec .scanBit s = .next t) (hf : s.fsm = Fsm.scanBit) :
    (t = s ∧ holds .scanBit s = true) ∨ s.EndsOnClosedStream t ∨
    (t.fsm = Fsm.tlmRecord ∧ ∃ c, s.edge.skipInactive s.inact = .ok () c ∧
      inTlmWindow s.sampleRate (c.curPos.toNat - s.lastEnd.toNat) = true) ∨
    (t.fsm = Fsm.emitAbort ∧ ∃ p, t.trace = s.trace ++ [.marker .error p]) ∨
    ((∃ k p, k ≠ .error ∧ t.trace = s.trace ++ [.marker k p]) ∧
      ((s.bitIdx.toNat < 15 ∧ t.fsm = Fsm.scanBit ∧ t.bitIdx = s.bitIdx + 1) ∨
       (s.bitIdx.toNat = 15 ∧ t.fsm = Fsm.emitCmd))) := by
  obtain ⟨hh, -, rfl⟩ | ⟨hc, c, n, -, -, rfl⟩ | ⟨c, n, -, -, -, hskip, hw, rfl⟩ | ⟨r, w, err, c, n, -, -, -, -, -, rfl⟩ :=
    execScanBit_cases h
  · exact .inl ⟨rfl, hh⟩
  · exact .inr (.inl (s.raiseExhausted_endsOnClosedStream hc c))
  · exact .inr (.inr (.inl ⟨rfl, c, hskip, hw⟩))
  · obtain ⟨-, hb⟩ | ⟨-, hi, hb⟩ | ⟨-, hi, hb⟩ := (s.leadingEdge r).closeBit_cases r w err <;> rw [hb]
    · exact .inr (.inr (.inr (.inl ⟨rfl, _, rfl⟩)))
    · exact .inr (.inr (.inr (.inr ⟨⟨_, _, markerClass_false_ne_error _ _, rfl⟩, .inr ⟨hi, rfl⟩⟩)))
    · exact .inr (.inr (.inr (.inr ⟨⟨_, _, markerClass_false_ne_error _ _, rfl⟩, .inl ⟨hi, hf, rfl⟩⟩)))

/-- The rows of TLM_RECORD: the window stays open, it closes, the log overflows. -/
theorem exec_tlmRecord_row {s t : State} (h : exec .tlmRecord s = .next t) (hf : s.fsm = Fsm.tlmRecord) (hk : s.tlmK = 0) :
    (t = s ∧ holds .tlmRecord s = true) ∨ s.EndsOnClosedStream t ∨
    (t.fsm = Fsm.tlmRecord ∧ tlmExceeded s.sampleRate s.kbps (t.edge.curPos.toNat - s.tlmStart.toNat) = false) ∨
    (t.fsm = Fsm.tlmSample ∧ t.tlmK = 0 ∧
      tlmExceeded s.sampleRate s.kbps (t.edge.curPos.toNat - s.tlmStart.toNat) = true) ∨
    (t.fsm = Fsm.fault ∧ t.faultCode = 1 ∧ ∃ cap, s.tlmLogCap = some cap ∧ cap ≤ s.tlmLog.length) := by
  obtain ⟨hh, -, rfl⟩ | ⟨hc, rfl⟩ | ⟨cap, hcap, hle, rfl⟩ | ⟨u, rest, -, rfl⟩ := execTlmRecord_cases h
  · exact .inl ⟨rfl, hh⟩
  · exact .inr (.inl (s.raiseExhausted_endsOnClosedStream hc _))
  · exact .inr (.inr (.inr (.inr ⟨rfl, rfl, cap, hcap, hle⟩)))
  · obtain ⟨hx, ht⟩ | ⟨hx, ht⟩ :=
      State.testWindow_cases { s with tlmLog := s.tlmLog ++ [{ level := s.edge.curLevel.other, t := u }] } u <;> rw [ht]
    · exact .inr (.inr (.inl ⟨hf, hx⟩))
    · exact .inr (.inr (.inr (.inl ⟨rfl, hk, hx⟩)))

/-- The rows of TLM_SAMPLE: the next sample, and the frame after the last. -/
theorem exec_tlmSample_row {s t : State} (h : exec .tlmSample s = .next t) (hf : s.fsm = Fsm.tlmSample) :
    (s.tlmK ≠ 19 ∧ t.fsm = Fsm.tlmSample ∧ t.tlmK = s.tlmK + 1) ∨ (s.tlmK = 19 ∧ t.fsm = Fsm.emitTlm) := by
  have hlast : s.tlmK = 19 ↔ s.tlmK.toNat = 19 := BitVec.toNat_eq
  cases h
  obtain ⟨hk, ht⟩ | ⟨hk, ht⟩ :=
    s.closeSample_cases s.tlmK.toNat (s.walkTo s.tlmK.toNat) (s.logLevel (s.walkTo s.tlmK.toNat)) <;> rw [ht]
  · exact .inr ⟨hlast.mpr hk, rfl⟩
  · exact .inl ⟨mt hlast.mp hk, hf, rfl⟩

/-- The rows of CHECKPOINT: the end of a cancelled run, and the next attempt. -/
theorem exec_checkpoint_row {s t : State} (h : exec .checkpoint s = .next t) :
    (t.cancelReq = true ∧ t.fsm = Fsm.done ∧ t.stopCause = 1) ∨
    (t.cancelReq = false ∧ t.fsm = Fsm.scanBit ∧ t.bitIdx = 0) := by
  cases hq : s.cancelReq with
  | true =>
    cases (execCheckpoint_of_cancelReq hq).symm.trans h
    exact .inl ⟨hq, rfl, rfl⟩
  | false =>
    cases (execCheckpoint_of_not_cancelReq hq).symm.trans h
    exact .inr ⟨hq, rfl, rfl⟩

/-- The decoder's step that answers a next state, scheduled or by itself, is the operation that `fsm` names, after the landing of a
cancel. -/
theorem exec_of_decoder_step {s s' : State} {rest : List Move} (hr : s.inReset = false)
    (hs : s.schedule = rest ∧ rest = [] ∨ s.schedule = .block :: rest) (h : step s = .next s') :
    exec (decodeFsm s.fsm) (State.landCancel { s with schedule := rest }) = .next s' := by
  have hstep : step s = blockStep { s with schedule := rest } := by
    obtain ⟨rfl, hnil⟩ | hblock := hs
    · exact step_of_schedule_nil hnil
    · exact step_of_schedule_block hblock
  obtain ⟨hrun, hstuck⟩ := blockStep_of_decode (s := { s with schedule := rest }) hr (decode_fetch _)
  rw [hstep] at h
  by_cases hc : s.stopCause = 3
  · cases (hstuck hc).symm.trans h
  · exact (hrun hc).symm.trans h

/-- Settles O45: each state code has its rows. The landing of a cancel, which CHECKPOINT alone sees, changes no other row. -/
theorem transitionTableIsComplete : Obligations.TransitionTableIsComplete := by
  intro s s' rest hr hs hcap h
  have hx := exec_of_decoder_step hr hs h
  by_cases hcheck : s.fsm = Fsm.checkpoint
  · rw [hcheck] at hx
    exact .inr (.inr (.inr (.inr (.inr (.inr (.inl ⟨hcheck, exec_checkpoint_row hx⟩))))))
  rw [State.landCancel_of_ne (s := { s with schedule := rest }) hcheck] at hx
  generalize hi : decodeFsm s.fsm = i at hx ⊢
  obtain hf | hf | hf | hf | hf | hf | hf | hf | hf | hf | hres := fsm_cases s.fsm
  · obtain rfl := hi.symm.trans (congrArg decodeFsm hf)
    obtain ⟨rfl, hh⟩ | hend | hrow := exec_align_row hx
    · exact .inl ⟨rfl, .inl hh⟩
    · exact .inr (.inr (.inr (.inr (.inr (.inr (.inr ⟨.inl hf, hend⟩))))))
    · exact .inr (.inl ⟨hf, hrow⟩)
  · obtain rfl := hi.symm.trans (congrArg decodeFsm hf)
    obtain ⟨rfl, hh⟩ | hend | hrow := exec_scanBit_row hx hf
    · exact .inl ⟨rfl, .inl hh⟩
    · exact .inr (.inr (.inr (.inr (.inr (.inr (.inr ⟨.inr (.inl hf), hend⟩))))))
    · exact .inr (.inr (.inl ⟨hf, hrow⟩))
  · obtain rfl := hi.symm.trans (congrArg decodeFsm hf)
    obtain ⟨-, hk, -⟩ := hcap.record hf
    obtain ⟨rfl, hh⟩ | hend | hrow := exec_tlmRecord_row hx hf hk
    · exact .inl ⟨rfl, .inl hh⟩
    · exact .inr (.inr (.inr (.inr (.inr (.inr (.inr ⟨.inr (.inr hf), hend⟩))))))
    · exact .inr (.inr (.inr (.inl ⟨hf, hrow⟩)))
  · obtain rfl := hi.symm.trans (congrArg decodeFsm hf)
    have hrow := exec_tlmSample_row hx hf
    exact .inr (.inr (.inr (.inr (.inl ⟨hf, hrow⟩))))
  · obtain rfl := hi.symm.trans (congrArg decodeFsm hf)
    cases hx
    exact .inr (.inr (.inr (.inr (.inr (.inl ⟨.inl hf, rfl⟩)))))
  · obtain rfl := hi.symm.trans (congrArg decodeFsm hf)
    cases hx
    exact .inr (.inr (.inr (.inr (.inr (.inl ⟨.inr (.inl hf), rfl⟩)))))
  · obtain rfl := hi.symm.trans (congrArg decodeFsm hf)
    cases hx
    exact .inr (.inr (.inr (.inr (.inr (.inl ⟨.inr (.inr hf), rfl⟩)))))
  · exact absurd hf hcheck
  · obtain rfl := hi.symm.trans (congrArg decodeFsm hf)
    cases hx
    exact .inl ⟨rfl, .inr (.inl hf)⟩
  · obtain rfl := hi.symm.trans (congrArg decodeFsm hf)
    cases hx
    exact .inl ⟨rfl, .inr (.inr hf)⟩
  · exact absurd (hi ▸ hx) (exec_ne_next_of_reserved hres _ _)

end Machine

end Sys2Proof

/-! # The eighth family of proofs: the overflow of the telemetry log and the entry into FAULT -/

namespace Sys2Proof

namespace Machine

/-! ## TLM_RECORD with a full log -/

/-- TLM_RECORD with an edge pending and no room in the log overflows (R613). -/
theorem execTlmRecord_of_full {s : State} {t : Sample} {rest : List Sample} {cap : Nat} (hp : s.edge.pending = t :: rest)
    (hcap : s.tlmLogCap = some cap) (hfull : cap ≤ s.tlmLog.length) : execTlmRecord s = .next s.raiseTlmLogOverflow := by
  obtain ⟨_, _, -, hroom, -⟩ | ⟨_, -, -, -, h⟩ | ⟨hnil, -⟩ | ⟨hnil, -⟩ := s.tlmRecord_cases
  · exact absurd (hroom cap hcap) (Nat.not_lt.mpr hfull)
  · rw [execTlmRecord, h, settle_ok]
    rfl
  · cases hp.symm.trans hnil
  · cases hp.symm.trans hnil

/-- Settles O28: of TLM_RECORD's ends the overflow is the one that a pending edge and a full log leave. -/
theorem tlmRecordOverflowFaults : Obligations.TlmRecordOverflowFaults := fun _ _ _ _ hp hcap hfull =>
  execTlmRecord_of_full hp hcap hfull

/-! ## The entry into FAULT -/

/-- No other code is that of FAULT (R320). -/
theorem fsm_ne_fault :
    Fsm.align ≠ Fsm.fault ∧ Fsm.scanBit ≠ Fsm.fault ∧ Fsm.tlmRecord ≠ Fsm.fault ∧ Fsm.tlmSample ≠ Fsm.fault ∧
    Fsm.emitTlm ≠ Fsm.fault ∧ Fsm.emitCmd ≠ Fsm.fault ∧ Fsm.emitAbort ≠ Fsm.fault ∧ Fsm.checkpoint ≠ Fsm.fault ∧
    Fsm.done ≠ Fsm.fault := by decide

/-- No instruction writes the log's capacity. -/
theorem Completes.tlmLogCap {i : Instr} {s t : State} (h : Completes i s t) : t.tlmLogCap = s.tlmLogCap := by
  cases h <;> simp [State.writeCfgCtrl_eq]

/-- FAULT is entered by the overflow of a finite log only (R206, R613). -/
theorem Completes.faultEntered {i : Instr} {s t : State} (h : Completes i s t) (hs : s.fsm ≠ Fsm.fault)
    (ht : t.fsm = Fsm.fault) : i = .tlmRecord ∧ ∃ cap, s.tlmLogCap = some cap ∧ cap ≤ s.tlmLog.length := by
  cases h with
  | overflowed cap hcap hfull => exact ⟨rfl, cap, hcap, hfull⟩
  | _ => exact absurd ht (by simp [State.writeCfgCtrl_eq, fsm_ne_fault, hs])

/-- `s` has an unbounded log and is not in FAULT. -/
def State.UnboundedUnfaulted (s : State) : Prop := s.tlmLogCap = none ∧ s.fsm ≠ Fsm.fault

/-- An instruction keeps a log unbounded, and without a capacity it does not overflow. -/
theorem Completes.unboundedUnfaulted {i : Instr} {s t : State} (h : Completes i s t) (hs : s.UnboundedUnfaulted) :
    t.UnboundedUnfaulted := by
  obtain ⟨hcap, hf⟩ := hs
  refine ⟨h.tlmLogCap.trans hcap, fun ht => ?_⟩
  obtain ⟨-, cap, hsome, -⟩ := h.faultEntered hf ht
  cases hcap.symm.trans hsome

/-- A move of another agent sets no capacity, and it writes `fsm` by reset only, which names ALIGN (R700). -/
theorem EnvMove.apply_tlmLogCap_fsm {m : EnvMove} {s t : State} (h : m.apply s = .next t) :
    t.tlmLogCap = s.tlmLogCap ∧ (t.fsm = s.fsm ∨ t.fsm = Fsm.align) := by
  obtain rfl | rfl | ⟨-, rfl⟩ | ⟨-, v, rfl⟩ | ⟨-, v, rfl⟩ | ⟨-, v, rfl⟩ | ⟨-, rfl⟩ | ⟨n, rfl⟩ | ⟨-, c, -, rfl⟩ |
    ⟨u, -, -, rfl⟩ | rfl := EnvMove.apply_cases h
  case inr.inl => exact ⟨rfl, .inr rfl⟩
  all_goals exact ⟨rfl, .inl rfl⟩

/-- A move of another agent keeps a log unbounded and does not enter FAULT. -/
theorem EnvMove.unboundedUnfaulted {m : EnvMove} {s t : State} (h : m.apply s = .next t) (hs : s.UnboundedUnfaulted) :
    t.UnboundedUnfaulted := by
  obtain ⟨hcap, hf⟩ := hs
  obtain ⟨hc, ht | ht⟩ := EnvMove.apply_tlmLogCap_fsm h
  · exact ⟨hc.trans hcap, ht ▸ hf⟩
  · exact ⟨hc.trans hcap, ht ▸ fsm_ne_fault.1⟩

/-- The landing of a cancel touches neither the capacity nor `fsm`. -/
theorem State.UnboundedUnfaulted.landCancel {s : State} (hs : s.UnboundedUnfaulted) : s.landCancel.UnboundedUnfaulted := by
  rw [s.landCancel_frame]
  exact hs

/-- Every step keeps a log unbounded and, from outside FAULT, does not enter it. -/
theorem step_unboundedUnfaulted {s s' : State} (h : step s = .next s') (hs : s.UnboundedUnfaulted) :
    s'.UnboundedUnfaulted := by
  have hnext (rest : List Move) : State.UnboundedUnfaulted { s with schedule := rest } := hs
  obtain ⟨rest, -, ⟨-, rfl⟩ | ⟨-, -, hx⟩⟩ | ⟨c, i, rest, -, -, -, -, hx⟩ | ⟨m, rest, -, hx⟩ := step_cases h
  · exact hnext rest
  · exact (completes_of_exec hx).unboundedUnfaulted (hnext rest).landCancel
  · exact (completes_of_exec hx).unboundedUnfaulted (hnext rest)
  · exact EnvMove.unboundedUnfaulted hx (hnext rest)

/-- Settles O57: every step of an instruction or of another agent keeps the log unbounded, and FAULT wants a finite one. -/
theorem unboundedLogNeverFaults : Obligations.UnboundedLogNeverFaults := fun _ _ hcap hf h =>
  (step_unboundedUnfaulted h ⟨hcap, hf⟩).symm

end Machine

end Sys2Proof

/-! # The ninth family of proofs: decoder and encoder are each other's inverse -/

namespace Sys2Proof

/-! ## Words of a format -/

/-- A word of the format is read back from its number. -/
@[simp] theorem ofNat_toNat_word {w : Nat} (r : BitVec w) : BitVec.ofNat w r.toNat = r :=
  (BitVec.ofNat_toNat w r).trans (BitVec.setWidth_eq r)

/-- The tag of a record is its three low bits (R310). -/
theorem ofNat_toNat_tag {w : Nat} (h : 3 ≤ w) (r : BitVec w) : BitVec.ofNat 3 r.toNat = r.extractLsb' 0 3 :=
  (BitVec.ofNat_toNat 3 r).trans (BitVec.setWidth_eq_extractLsb' h)

/-- A word fits its own format. -/
@[simp] theorem fits_toNat {w : Nat} (r : BitVec w) (d : Decoded) : fits w r.toNat d = d := if_pos r.isLt

/-- What is accepted in a format is a word of it. -/
theorem exists_word_of_fits {width n : Nat} {d : Decoded} {i : Instr} (h : fits width n d = .ok i) :
    ∃ r : BitVec width, n = r.toNat ∧ d = .ok i := by
  unfold fits at h
  split at h
  next hlt => exact ⟨BitVec.ofNatLT n hlt, rfl, h⟩
  next => cases h

/-! ## Records by their fields -/

/-- A class has one code (R316). -/
theorem decodeClass_eq_some_iff {b : BitVec 3} {c : MarkerClass} : decodeClass b = some c ↔ b = c.code := by
  cases c <;> revert b <;> decide

/-- A `MARKER` record is put together from its fields (R311). -/
theorem encodeMarker_of_fields {r : BitVec 70} {c : MarkerClass} (htag : r.extractLsb' 0 3 = 0b000#3)
    (hcls : r.extractLsb' 3 3 = c.code) : encodeMarker c (r.extractLsb' 6 64) = r := by
  simp [encodeMarker, -Nat.reduceAdd, ← hcls, ← htag, BitVec.extractLsb'_append_extractLsb'_eq_extractLsb',
    BitVec.extractLsb'_eq_self]

/-- A flag of a record as a field of one bit. -/
theorem ofBool_getLsbD {w : Nat} (r : BitVec w) (k : Nat) : BitVec.ofBool (r.getLsbD k) = r.extractLsb' k 1 := by
  apply BitVec.eq_of_getLsbD_eq
  intro i hi
  obtain rfl : i = 0 := by omega
  simp

/-- A `CMD_FRAME` record is put together from its fields (R312). -/
theorem encodeCmdFrame_decodeCmdFrame {r : BitVec 161} (htag : r.extractLsb' 0 3 = 0b001#3) :
    encodeCmdFrame (decodeCmdFrame r) = r := by
  simp [encodeCmdFrame, -Nat.reduceAdd, decodeCmdFrame, -BitVec.getLsbD_eq_getElem, ofBool_getLsbD, ← htag,
    BitVec.extractLsb'_append_extractLsb'_eq_extractLsb', BitVec.extractLsb'_eq_self]

/-- A `TLM_FRAME` record is put together from its fields (R313). -/
theorem encodeTlmFrame_decodeTlmFrame {r : BitVec 151} (htag : r.extractLsb' 0 3 = 0b010#3) :
    encodeTlmFrame (decodeTlmFrame r) = r := by
  simp [encodeTlmFrame, -Nat.reduceAdd, decodeTlmFrame, ← htag, BitVec.extractLsb'_append_extractLsb'_eq_extractLsb',
    BitVec.extractLsb'_eq_self]

/-- The fields of a `CMD_FRAME` record are read back (R312). -/
theorem decodeCmdFrame_encodeCmdFrame (f : CmdFrame) : decodeCmdFrame (encodeCmdFrame f) = f := by
  obtain ⟨-, hpayload, hraw, hstart, hstop⟩ := extractLsb'_encodeCmdFrame f
  obtain ⟨hcrc, hreq, herr⟩ := getLsbD_encodeCmdFrame f
  rw [decodeCmdFrame, hpayload, hraw, hstart, hstop, hcrc, hreq, herr]

/-- The fields of a `TLM_FRAME` record are read back (R313). -/
theorem decodeTlmFrame_encodeTlmFrame (f : TlmFrame) : decodeTlmFrame (encodeTlmFrame f) = f := by
  obtain ⟨-, hdata, hstart, hstop⟩ := extractLsb'_encodeTlmFrame f
  rw [decodeTlmFrame, hdata, hstart, hstop]

/-! ## Event records -/

/-- A record accepted under a tag is a word of its format with that tag in its fields (R310). -/
theorem exists_record_of_fits {width n : Nat} {tag : BitVec 3} {read : BitVec width → Decoded} {i : Instr} (hw : 3 ≤ width)
    (htag : BitVec.ofNat 3 n = tag) (h : fits width n (read (BitVec.ofNat width n)) = .ok i) :
    ∃ r : BitVec width, n = r.toNat ∧ r.extractLsb' 0 3 = tag ∧ read r = .ok i := by
  obtain ⟨r, rfl, hd⟩ := exists_word_of_fits h
  rw [ofNat_toNat_word] at hd
  exact ⟨r, rfl, (ofNat_toNat_tag hw r).symm.trans htag, hd⟩

/-- A record with the tag of `MARKER` is read as one (R310). -/
theorem decodeEvent_of_marker_tag {r : BitVec 70} (h : r.extractLsb' 0 3 = 0b000) : decodeEvent r.toNat = decodeMarker r := by
  have htag : BitVec.ofNat 3 r.toNat = 0b000 := (ofNat_toNat_tag (by decide) r).trans h
  simp [decodeEvent, htag]

/-- A record with the tag of `CMD_FRAME` is read as one (R310). -/
theorem decodeEvent_of_cmdFrame_tag {r : BitVec 161} (h : r.extractLsb' 0 3 = 0b001) :
    decodeEvent r.toNat = .ok (.cmdFrame (decodeCmdFrame r)) := by
  have htag : BitVec.ofNat 3 r.toNat = 0b001 := (ofNat_toNat_tag (by decide) r).trans h
  simp [decodeEvent, htag]

/-- A record with the tag of `TLM_FRAME` is read as one (R310). -/
theorem decodeEvent_of_tlmFrame_tag {r : BitVec 151} (h : r.extractLsb' 0 3 = 0b010) :
    decodeEvent r.toNat = .ok (.tlmFrame (decodeTlmFrame r)) := by
  have htag : BitVec.ofNat 3 r.toNat = 0b010 := (ofNat_toNat_tag (by decide) r).trans h
  simp [decodeEvent, htag]

theorem decode_encode_marker (c : MarkerClass) (sample : Sample) :
    decode (encode (.marker c sample)) = .ok (.marker c sample) := by
  obtain ⟨htag, hcls, hsample⟩ := extractLsb'_encodeMarker c sample
  have hdecode : decodeMarker (encodeMarker c sample) = .ok (.marker c sample) := by
    rw [decodeMarker, hcls, decodeClass_eq_some_iff.mpr rfl, hsample]
  exact (decodeEvent_of_marker_tag htag).trans hdecode

theorem decode_encode_cmdFrame (f : CmdFrame) : decode (encode (.cmdFrame f)) = .ok (.cmdFrame f) := by
  have h := decodeEvent_of_cmdFrame_tag (extractLsb'_encodeCmdFrame f).1
  rwa [decodeCmdFrame_encodeCmdFrame] at h

theorem decode_encode_tlmFrame (f : TlmFrame) : decode (encode (.tlmFrame f)) = .ok (.tlmFrame f) := by
  have h := decodeEvent_of_tlmFrame_tag (extractLsb'_encodeTlmFrame f).1
  rwa [decodeTlmFrame_encodeTlmFrame] at h

/-- What the decoder accepts as a `MARKER` record is put together from its class and its sample (R311). -/
theorem encode_of_decodeMarker {r : BitVec 70} {i : Instr} (htag : r.extractLsb' 0 3 = 0b000) (h : decodeMarker r = .ok i) :
    encode i = ⟨.event, r.toNat⟩ := by
  unfold decodeMarker at h
  split at h
  next c hc =>
    cases h
    rw [encode, encodeMarker_of_fields htag (decodeClass_eq_some_iff.mp hc)]
  next => cases h

/-- A record of three bits is its tag (R310). -/
theorem encode_of_tag_record {n : Nat} {i j : Instr} (htag : encode j = ⟨.event, (BitVec.ofNat 3 n).toNat⟩)
    (h : fits 3 n (.ok j) = .ok i) : encode i = ⟨.event, n⟩ := by
  obtain ⟨r, rfl, hd⟩ := exists_word_of_fits h
  cases hd
  rwa [ofNat_toNat_word] at htag

/-- What the decoder accepts as an event record is the record that the encoder writes: the long ones are put together from their
fields, and the others are their tags. -/
theorem encode_of_decodeEvent {n : Nat} {i : Instr} (h : decodeEvent n = .ok i) : encode i = ⟨.event, n⟩ := by
  unfold decodeEvent at h
  split at h
  next htag =>
    obtain ⟨r, rfl, htag, hd⟩ := exists_record_of_fits (read := decodeMarker) (by decide) htag h
    exact encode_of_decodeMarker htag hd
  next htag =>
    obtain ⟨r, rfl, htag, hd⟩ :=
      exists_record_of_fits (read := fun r => .ok (.cmdFrame (decodeCmdFrame r))) (by decide) htag h
    cases hd
    rw [encode, encodeCmdFrame_decodeCmdFrame htag]
  next htag =>
    obtain ⟨r, rfl, htag, hd⟩ :=
      exists_record_of_fits (read := fun r => .ok (.tlmFrame (decodeTlmFrame r))) (by decide) htag h
    cases hd
    rw [encode, encodeTlmFrame_decodeTlmFrame htag]
  next htag => exact encode_of_tag_record (by rw [htag]; rfl) h
  next htag => exact encode_of_tag_record (by rw [htag]; rfl) h
  next htag => exact encode_of_tag_record (by rw [htag]; rfl) h
  next htag => exact encode_of_tag_record (by rw [htag]; rfl) h
  next h0 h1 h2 h3 h4 h5 h6 =>
    have htag : BitVec.ofNat 3 n = 0b111 := by
      revert h0 h1 h2 h3 h4 h5 h6
      generalize BitVec.ofNat 3 n = t
      revert t
      decide
    exact encode_of_tag_record (by rw [htag]; rfl) h

/-! ## Marker class rows -/

/-- The instruction of the class row with the code `c`: what `decodeClassRow` answers, by the row's two fields. -/
def classRow (c : BitVec 3) (sample : Sample) : Instr :=
  match c with
  | 0b000 => .markerZero sample
  | 0b001 => .markerOne sample
  | 0b010 => .markerStart sample
  | 0b011 => .markerStop sample
  | 0b100 => .markerError sample
  | 0b101 => .markerReserved101 sample
  | 0b110 => .markerReserved110 sample
  | _ => .markerReserved111 sample

theorem decodeClassRow_eq (r : BitVec 67) : decodeClassRow r = classRow (r.extractLsb' 0 3) (r.extractLsb' 3 64) := rfl

theorem encode_classRow (c : BitVec 3) (sample : Sample) :
    encode (classRow c sample) = ⟨.cls, (encodeClassRow c sample).toNat⟩ := by
  have hcodes : c = 0b000 ∨ c = 0b001 ∨ c = 0b010 ∨ c = 0b011 ∨ c = 0b100 ∨ c = 0b101 ∨ c = 0b110 ∨ c = 0b111 := by
    revert c
    decide
  obtain rfl | rfl | rfl | rfl | rfl | rfl | rfl | rfl := hcodes <;> rfl

/-- A class row is decoded by its fields, whatever its code (R316). -/
theorem decode_encode_classRow (c : BitVec 3) (sample : Sample) :
    decode (encode (classRow c sample)) = .ok (classRow c sample) := by
  have hcode : (encodeClassRow c sample).extractLsb' 0 3 = c := BitVec.extractLsb'_append_eq_right
  have hsample : (encodeClassRow c sample).extractLsb' 3 64 = sample := BitVec.extractLsb'_append_eq_left
  simp [encode_classRow, decode, decodeClassRow_eq, hcode, hsample]

/-- What the decoder reads as a class row is put together from its fields. -/
theorem encode_decodeClassRow (r : BitVec 67) : encode (decodeClassRow r) = ⟨.cls, r.toNat⟩ := by
  have hrow : encodeClassRow (r.extractLsb' 0 3) (r.extractLsb' 3 64) = r := by
    simp [encodeClassRow, -Nat.reduceAdd, BitVec.extractLsb'_append_extractLsb'_eq_extractLsb',
      BitVec.extractLsb'_eq_self]
  rw [decodeClassRow_eq, encode_classRow, hrow]

/-! ## Words of three fields -/

/-- Three fields put one above the other are read back at their bits. -/
theorem extractLsb'_of_three_fields {l m n : Nat} (x : BitVec l) (y : BitVec m) (z : BitVec n) :
    (x ++ y ++ z).extractLsb' (m + n) l = x ∧ (x ++ y ++ z).extractLsb' n m = y ∧ (x ++ y ++ z).extractLsb' 0 n = z := by
  refine ⟨?_, ?_, BitVec.extractLsb'_append_eq_right⟩
  · simp [BitVec.extractLsb'_append_eq_of_le]
  · simp [BitVec.extractLsb'_append_eq_of_le, BitVec.extractLsb'_append_eq_right]

/-- A word is put together from three fields that cover it. -/
theorem append_of_three_fields {l m n : Nat} (w : BitVec (l + m + n)) :
    w.extractLsb' (m + n) l ++ w.extractLsb' n m ++ w.extractLsb' 0 n = w := by
  rw [BitVec.extractLsb'_append_extractLsb'_eq_extractLsb' (Nat.add_comm m n),
    BitVec.extractLsb'_append_extractLsb'_eq_extractLsb' (Nat.zero_add n).symm, BitVec.extractLsb'_eq_self]

theorem decode_encode_cmdWord (p : BitVec 11) (t : BitVec 1) (c : BitVec 4) :
    decode (encode (.cmdWord p t c)) = .ok (.cmdWord p t c) := by
  obtain ⟨hp, ht, hc⟩ := extractLsb'_of_three_fields p t c
  have hword : decodeCmdWord (p ++ t ++ c) = .cmdWord p t c := by rw [decodeCmdWord, hp, ht, hc]
  simp [encode, decode, -BitVec.toNat_append, hword]

theorem decode_encode_cfgCtrl (z : BitVec 29) (b : BitVec 1) (r : BitVec 2) :
    decode (encode (.cfgCtrl z b r)) = .ok (.cfgCtrl z b r) := by
  obtain ⟨hz, hb, hr⟩ := extractLsb'_of_three_fields z b r
  have hword : decodeCfgCtrl (z ++ b ++ r) = .cfgCtrl z b r := by rw [decodeCfgCtrl, hz, hb, hr]
  simp [encode, decode, -BitVec.toNat_append, hword]

theorem decode_encode_tlmWord (d : BitVec 20) : decode (encode (.tlmWord d)) = .ok (.tlmWord d) := by
  simp [encode, decode]

theorem encode_decodeCmdWord (w : BitVec 16) : encode (decodeCmdWord w) = ⟨.cmdWord, w.toNat⟩ :=
  congrArg (fun v : BitVec 16 => CodeWord.mk .cmdWord v.toNat) (append_of_three_fields (l := 11) (m := 1) (n := 4) w)

theorem encode_decodeCfgCtrl (v : BitVec 32) : encode (decodeCfgCtrl v) = ⟨.cfgCtrl, v.toNat⟩ :=
  congrArg (fun v : BitVec 32 => CodeWord.mk .cfgCtrl v.toNat) (append_of_three_fields (l := 29) (m := 1) (n := 2) v)

/-! ## Both directions of the encoding -/

/-- A state code is decoded by its number, and a record of three bits by its tag; the other rows are read by their fields. -/
theorem decode_encode (i : Instr) : decode (encode i) = .ok i := by
  cases i with
  | marker c sample => exact decode_encode_marker c sample
  | cmdFrame f => exact decode_encode_cmdFrame f
  | tlmFrame f => exact decode_encode_tlmFrame f
  | markerZero sample => exact decode_encode_classRow 0b000 sample
  | markerOne sample => exact decode_encode_classRow 0b001 sample
  | markerStart sample => exact decode_encode_classRow 0b010 sample
  | markerStop sample => exact decode_encode_classRow 0b011 sample
  | markerError sample => exact decode_encode_classRow 0b100 sample
  | markerReserved101 sample => exact decode_encode_classRow 0b101 sample
  | markerReserved110 sample => exact decode_encode_classRow 0b110 sample
  | markerReserved111 sample => exact decode_encode_classRow 0b111 sample
  | cmdWord p t c => exact decode_encode_cmdWord p t c
  | tlmWord d => exact decode_encode_tlmWord d
  | cfgCtrl z b r => exact decode_encode_cfgCtrl z b r
  | _ => rfl

/-- Settles O2, row by row of the opcode table. -/
theorem decodeOfEncodeIsTheInstruction : Obligations.DecodeOfEncodeIsTheInstruction := decode_encode

/-- In a space of one format the encoder writes the accepted words, if it writes each word as the decoder reads it. -/
theorem encode_of_fits {space : Space} {width n : Nat} {read : BitVec width → Instr} {i : Instr}
    (hread : ∀ r, encode (read r) = ⟨space, r.toNat⟩) (h : fits width n (.ok (read (BitVec.ofNat width n))) = .ok i) :
    encode i = ⟨space, n⟩ := by
  obtain ⟨r, rfl, hd⟩ := exists_word_of_fits h
  rw [ofNat_toNat_word] at hd
  cases hd
  exact hread r

/-- Settles O3: in each space an accepted word is put together from the fields that its decoder read. -/
theorem encodeOfDecodeIsTheWord : Obligations.EncodeOfDecodeIsTheWord := by
  rintro ⟨space, n⟩ i h
  cases space with
  | event => exact encode_of_decodeEvent h
  | fsm => exact encode_of_fits encode_decodeFsm h
  | cls => exact encode_of_fits encode_decodeClassRow h
  | cmdWord => exact encode_of_fits encode_decodeCmdWord h
  | tlmWord => exact encode_of_fits (fun _ => rfl) h
  | cfgCtrl => exact encode_of_fits encode_decodeCfgCtrl h

end Sys2Proof

/-! # The tenth family of proofs: edge streams in order, and the invariant of a run -/

namespace Sys2Proof

namespace Machine

/-! ## Edge streams (R201) -/

/-- A stream is well-formed where no timestamp lies below an earlier one or the start position. -/
theorem nonDecreasing_iff_pairwise {p : Sample} {ts : List Sample} :
    nonDecreasing p ts = true ↔ (p :: ts).Pairwise (· ≤ ·) := by
  induction ts generalizing p with
  | nil => simp [nonDecreasing]
  | cons t rest ih =>
    rw [nonDecreasing_cons, ih, List.pairwise_cons (a := p)]
    constructor
    · rintro ⟨hpt, hord⟩
      have hrest : ∀ u ∈ rest, t ≤ u := (List.pairwise_cons.mp hord).1
      exact ⟨List.forall_mem_cons.mpr ⟨hpt, fun u hu => BitVec.le_trans hpt (hrest u hu)⟩, hord⟩
    · rintro ⟨hp, hord⟩
      exact ⟨hp t List.mem_cons_self, hord⟩

/-- A timestamp may be appended that does not lie below the last one. -/
theorem nonDecreasing_concat {p u : Sample} {ts : List Sample} :
    nonDecreasing p (ts ++ [u]) = true ↔ nonDecreasing p ts = true ∧ ts.getLast?.getD p ≤ u := by
  induction ts generalizing p with
  | nil => simp [nonDecreasing]
  | cons t rest ih =>
    rw [List.cons_append, nonDecreasing_cons, nonDecreasing_cons, ih, List.getLast?_cons, Option.getD_some, and_assoc]

theorem EdgeInput.Consumed.of_eq {c c' : EdgeInput} (h : c' = c) : c.Consumed c' 0 := h ▸ .refl c

/-- What every instruction does to the edge input: it consumes at most two edges, in order. -/
theorem Completes.consumed {i : Instr} {s t : State} (h : Completes i s t) : ∃ n, n ≤ 2 ∧ s.edge.Consumed t.edge n := by
  cases h with
  | exhausted _ _ c hn => exact hn
  | aligned c hn | captureOpened c hn =>
    obtain ⟨n, hn, hc⟩ := hn
    exact ⟨n, by omega, hc⟩
  | bitErrored r w c hp | lastBitRead r w c hp | bitRead r w c hp => exact hp.consumed
  | recorded u rest hp | windowClosed u rest hp => exact ⟨1, by omega, (EdgeInput.Consumed.refl s.edge).next hp⟩
  | _ => exact ⟨0, by omega, .of_eq (by simp [State.writeCfgCtrl_eq])⟩

/-- Settles O52: what is consumed is a first part of the pending edges, and it leaves the stream in order. -/
theorem edgesAreConsumedInOrder : Obligations.EdgesAreConsumedInOrder := by
  intro i s t h
  obtain ⟨n, hn, hc⟩ := (completes_of_exec h).consumed
  exact ⟨hc.closed, ⟨n, hn, hc.pending⟩, hc.ordered⟩

/-! ## The decoder's own instruction -/

/-- The decoder runs `i` only where the code of `i` stands in `fsm` (R322). -/
theorem fsm_eq_of_decoded {s : State} {i : Instr} {c : BitVec 4} (hi : i = decodeFsm s.fsm)
    (hc : encode i = ⟨.fsm, c.toNat⟩) : s.fsm = c :=
  fsm_eq_of_launched (p := False) (.inl hi) hc

/-- The decoder runs no value of a port. -/
theorem space_of_decoded {s : State} {i : Instr} (hi : i = decodeFsm s.fsm) : (encode i).space = .fsm := by
  rw [hi, encode_decodeFsm]

/-- DONE and FAULT have no operation (R559, R614). -/
theorem Completes.eq_of_no_operation {i : Instr} {s t : State} (h : Completes i s t) (hi : i = .done ∨ i = .fault) : t = s := by
  cases h with
  | held | stayed => rfl
  | exhausted hr => obtain rfl | rfl := hi <;> simp [ReadsEdges] at hr
  | emitted hp | wordLoaded hp | dataLoaded hp | configWritten hp => obtain rfl | rfl := hi <;> exact absurd rfl hp
  | _ => simp at hi

/-! ## Codes and configuration -/

section
variable {i : Instr} {s t : State} (h : Completes i s t)
include h

/-- Every state code that is written is a defined one. -/
theorem Completes.fsm_defined : t.fsm = s.fsm ∨ t.fsm.toNat ≤ 9 := by
  cases h with
  | held | bitRead | recorded | sampled | stayed | emitted | wordLoaded | dataLoaded => exact .inl rfl
  | configWritten => exact .inl (by rw [State.writeCfgCtrl_eq])
  | exhausted | aligned | captureOpened | bitErrored | lastBitRead | overflowed | windowClosed | lastSampled | tlmEmitted
  | cmdEmitted | cmdRefuted | aborted | cancelled | nextAttempt => exact .inr (Nat.le_of_ble_eq_true rfl)

/-- FAULT is entered with `fault_code` 1, which nothing else writes (R118, R613). -/
theorem Completes.fault_code :
    ((t.fsm = s.fsm ∨ t.fsm ≠ Fsm.fault) ∧ t.faultCode = s.faultCode) ∨ (t.fsm = Fsm.fault ∧ t.faultCode = 1) := by
  cases h with
  | overflowed => exact .inr ⟨rfl, rfl⟩
  | _ => exact .inl (by simp [State.writeCfgCtrl_eq, fsm_ne_fault])

/-- `tlm_k` goes up to 19 and no further (R455). -/
theorem Completes.tlmK_le (hk : s.tlmK.toNat ≤ 19) : t.tlmK.toNat ≤ 19 := by
  cases h with
  | captureOpened => exact Nat.zero_le 19
  | sampled l hl h19 =>
    have hnext : (s.tlmK + 1).toNat = s.tlmK.toNat + 1 := BitVec.toNat_add_of_lt (by simp; omega)
    exact hnext ▸ (show s.tlmK.toNat + 1 ≤ 19 by omega)
  | _ => simpa [State.writeCfgCtrl_eq] using hk

/-- The decoder's operations keep the codes and the configuration legal: in DONE and FAULT nothing is done, and elsewhere neither
`stop_cause` nor `fault_code` is set before its code is entered. -/
theorem Completes.codesOk (hi : i = decodeFsm s.fsm) (hr : s.inReset = false) (hs : s.CodesOk) : t.CodesOk := by
  by_cases hend : s.fsm = Fsm.done ∨ s.fsm = Fsm.fault
  · have hops : i = .done ∨ i = .fault := by rw [hi]; exact hend.imp (congrArg decodeFsm) (congrArg decodeFsm)
    rwa [h.eq_of_no_operation hops]
  obtain ⟨hdone, hfault⟩ := not_or.mp hend
  have hstop : s.stopCause = 0 := not_not.mp (mt hs.stop_iff_done.mp hdone)
  have hcode : s.faultCode = 0 := hs.fault_code.trans (if_neg hfault)
  obtain ⟨hctrl, hrate, hline⟩ := h.config hr
  obtain ⟨hr', -⟩ := h.control
  refine ⟨?_, ?_, ?_, ?_, h.tlmK_le hs.tlm_k, by rw [hctrl]; exact hs.cfg_reserved, by rw [hline]; exact hs.cfg_line, ?_, ?_⟩
  · obtain hf | hf := h.fsm_defined
    · rw [hf]
      exact hs.fsm_defined
    · exact hf
  · obtain ⟨hc, hf⟩ | ⟨hf, ⟨-, hc, -⟩ | ⟨-, hc, -⟩⟩ := h.stopCause
    · simp [hc, hstop, mt hf hdone]
    · simp [hc, hf]
    · simp [hc, hf]
  · obtain ⟨hc, -⟩ | ⟨-, ⟨-, hc, -⟩ | ⟨-, hc, -⟩⟩ := h.stopCause
    · simp [hc, hstop]
    · simp [hc]
    · simp [hc]
  · obtain ⟨hf, hc⟩ | ⟨hf, hc⟩ := h.fault_code
    · have hne : t.fsm ≠ Fsm.fault := hf.elim (fun hf => hf ▸ hfault) id
      rw [hc, hcode, if_neg hne]
    · rw [hc, if_pos hf]
  · intro _
    have hlegal := s.configLegal_iff.mp (hs.config_legal hr)
    rw [State.configLegal_iff, State.kbps, hctrl, hrate]
    exact hlegal
  · intro hin
    cases (hr'.trans hr).symm.trans hin

end

/-! ## Positions -/

/-- The position register `reg` is left, or written with a position at or before the cursor. -/
def KeepsPosition (reg : State → Sample) (s t : State) : Prop := reg t = reg s ∨ reg t ≤ t.edge.curPos

/-- A register that is kept stays at or before the cursor, which does not go back. -/
theorem KeepsPosition.le {reg : State → Sample} {s t : State} (h : KeepsPosition reg s t) (hle : s.edge.curPos ≤ t.edge.curPos)
    (hs : reg s ≤ s.edge.curPos) : reg t ≤ t.edge.curPos := by
  obtain heq | hnew := h
  · rw [heq]
    exact BitVec.le_trans hs hle
  · exact hnew

/-- The leading edge writes `rising`, and `frame_start` or not. -/
theorem State.leadingEdge_keepsPosition {s t : State} {r : Sample} (hrise : t.rising = r)
    (hframe : t.frameStart = if s.bitIdx = 0 then r else s.frameStart) (hle : r ≤ t.edge.curPos) :
    KeepsPosition State.rising s t ∧ KeepsPosition State.frameStart s t := by
  refine ⟨.inr (hrise ▸ hle), ?_⟩
  by_cases hi : s.bitIdx = 0
  · exact .inr (by rwa [hframe, if_pos hi])
  · exact .inl (by rw [hframe, if_neg hi])

section
variable {i : Instr} {s t : State} (h : Completes i s t)
include h

/-- SCAN_BIT alone writes `rising` and `frame_start`, at the leading edge that it has reached (R404, R413). -/
theorem Completes.keepsBitPositions (hord : nonDecreasing s.edge.curPos s.edge.pending = true) :
    KeepsPosition State.rising s t ∧ KeepsPosition State.frameStart s t := by
  cases h with
  | captureOpened c => exact State.leadingEdge_keepsPosition rfl rfl (BitVec.le_refl c.curPos)
  | bitErrored r w c hp | lastBitRead r w c hp | bitRead r w c hp =>
    exact State.leadingEdge_keepsPosition rfl rfl (hp.ordered hord).2
  | _ => exact ⟨.inl (by simp [State.writeCfgCtrl_eq]), .inl (by simp [State.writeCfgCtrl_eq])⟩

/-- The telemetry window's ends are written at the cursor (R452, R453). -/
theorem Completes.keepsWindowPositions : KeepsPosition State.tlmStart s t ∧ KeepsPosition State.tlmEnd s t := by
  cases h with
  | captureOpened c => exact ⟨.inr (BitVec.le_refl c.curPos), .inl (by simp)⟩
  | windowClosed u => exact ⟨.inl (by simp), .inr (BitVec.le_refl u)⟩
  | _ => exact ⟨.inl (by simp [State.writeCfgCtrl_eq]), .inl (by simp [State.writeCfgCtrl_eq])⟩

/-- Every instruction keeps the stream in order and every position at or before the cursor (R115, R202). -/
theorem Completes.positionsOk (hs : s.PositionsOk) : t.PositionsOk := by
  obtain ⟨n, -, hc⟩ := h.consumed
  obtain ⟨hle, hstream⟩ := hc.ordered hs.stream
  obtain ⟨hrise, hframe⟩ := h.keepsBitPositions hs.stream
  obtain ⟨hstart, hend⟩ := h.keepsWindowPositions
  refine ⟨hstream, ?_, hframe.le hle hs.frame_start, hrise.le hle hs.rising, hstart.le hle hs.tlm_start, hend.le hle hs.tlm_end⟩
  obtain hl | ⟨-, hl⟩ | ⟨-, hl⟩ := h.lastEnd <;> rw [hl]
  · exact BitVec.le_trans hs.last_end hle
  · exact hle
  · exact BitVec.le_trans hs.tlm_end hle

end

/-! ## Telemetry captures -/

/-- The log of a capture by its entries. -/
theorem State.logOk_iff {s : State} :
    s.logOk ↔ ∃ rest, s.tlmLog = { level := s.act, t := s.tlmStart } :: rest ∧
      nonDecreasing s.tlmStart (rest.map LogEntry.t) = true ∧ ∀ x ∈ rest, x.t ≤ s.edge.curPos := by
  unfold State.logOk
  cases s.tlmLog with
  | nil => simp
  | cons e rest => simp

/-- An entry at the cursor's new position may be appended to a capture's log. -/
theorem State.logOk.append {s t : State} {x : LogEntry} (h : s.logOk) (hlog : t.tlmLog = s.tlmLog ++ [x])
    (hact : t.act = s.act) (hstart : t.tlmStart = s.tlmStart) (hx : x.t = t.edge.curPos)
    (hle : s.edge.curPos ≤ t.edge.curPos) (hpos : s.tlmStart ≤ s.edge.curPos) : t.logOk := by
  obtain ⟨rest, hs, hord, hbound⟩ := State.logOk_iff.mp h
  have hrest : ∀ y ∈ rest, y.t ≤ t.edge.curPos := fun y hy => BitVec.le_trans (hbound y hy) hle
  have hlast : (rest.map LogEntry.t).getLast?.getD s.tlmStart ≤ x.t := by
    rw [hx]
    cases hl : (rest.map LogEntry.t).getLast? with
    | none => exact BitVec.le_trans hpos hle
    | some u =>
      obtain ⟨y, hy, rfl⟩ := List.mem_map.mp (List.mem_of_getLast? hl)
      exact hrest y hy
  refine State.logOk_iff.mpr ⟨rest ++ [x], by rw [hlog, hs, hact, hstart]; rfl, ?_, ?_⟩
  · rw [hstart, List.map_append]
    exact nonDecreasing_concat.mpr ⟨hord, hlast⟩
  · intro y hy
    obtain hy | hy := List.mem_append.mp hy
    · exact hrest y hy
    · rw [List.mem_singleton.mp hy, hx]
      exact BitVec.le_refl _

/-- Outside a capture nothing is asked of its registers. -/
theorem State.CaptureOk.of_fsm {t : State} {c : BitVec 4} (hf : t.fsm = c)
    (hc : c ≠ Fsm.tlmRecord ∧ c ≠ Fsm.tlmSample ∧ c ≠ Fsm.emitTlm) : t.CaptureOk := by
  subst hf
  obtain ⟨hr, hs, he⟩ := hc
  exact ⟨fun h => absurd h hr, fun h => absurd h hs, fun h => absurd h he⟩

/-- While a capture records. -/
theorem State.CaptureOk.of_tlmRecord {t : State} (hf : t.fsm = Fsm.tlmRecord) (h : t.logOk ∧ t.tlmK = 0 ∧ t.tlmJ = 0) :
    t.CaptureOk :=
  ⟨fun _ => h, fun hs => absurd (hf.symm.trans hs) (by decide), fun he => absurd (hf.symm.trans he) (by decide)⟩

/-- While a capture samples. -/
theorem State.CaptureOk.of_tlmSample {t : State} (hf : t.fsm = Fsm.tlmSample) (hlog : t.logOk)
    (hx : tlmExceeded t.sampleRate t.kbps t.tlmDuration = true) (hlast : t.tlmLog.getLast?.map LogEntry.t = some t.tlmEnd)
    {e : LogEntry} (he : t.logRead t.tlmJ = some e)
    (hle : 40 * (e.t.toNat - t.tlmStart.toNat) ≤ samplePoint40 t.tlmK.toNat t.tlmDuration) : t.CaptureOk :=
  ⟨fun hr => absurd (hf.symm.trans hr) (by decide), fun _ => ⟨hlog, hx, hlast, e, he, hle⟩,
    fun he => absurd (hf.symm.trans he) (by decide)⟩

/-- When a capture is to be emitted. -/
theorem State.CaptureOk.of_emitTlm {t : State} (hf : t.fsm = Fsm.emitTlm) (h : t.tlmStart < t.tlmEnd) : t.CaptureOk :=
  ⟨fun hr => absurd (hf.symm.trans hr) (by decide), fun hs => absurd (hf.symm.trans hs) (by decide), fun _ => h⟩

/-- A window that exceeds its limit is not empty (R451). -/
theorem State.tlmStart_lt_tlmEnd {s : State} (h : tlmExceeded s.sampleRate s.kbps s.tlmDuration = true) :
    s.tlmStart < s.tlmEnd := by
  have hpos : 0 < s.tlmDuration := Nat.pos_of_ne_zero fun h0 => by simp [h0, tlmExceeded_iff] at h
  rw [BitVec.lt_def]
  unfold State.tlmDuration at hpos
  omega

/-- A later sample point lies no earlier (R454). -/
theorem samplePoint40_mono {k k' : Nat} (d : Nat) (h : k ≤ k') : samplePoint40 k d ≤ samplePoint40 k' d :=
  Nat.mul_le_mul_right d (by omega)

section
variable {s : State} (hs : s.CaptureOk)
include hs

/-- TLM_RECORD's append keeps a recording capture's log in order (R205). -/
theorem State.CaptureOk.logOk_recorded {t : State} {u : Sample} {rest : List Sample} (hpos : s.PositionsOk)
    (hf : s.fsm = Fsm.tlmRecord) (hp : s.edge.pending = u :: rest)
    (ht : t.edge.curPos = u ∧ t.act = s.act ∧ t.tlmStart = s.tlmStart ∧
      t.tlmLog = s.tlmLog ++ [{ level := s.edge.curLevel.other, t := u }]) : t.logOk := by
  obtain ⟨hcur, hact, hstart, hlog⟩ := ht
  have hle : s.edge.curPos ≤ u := by
    have hstream := hpos.stream
    rw [hp, nonDecreasing_cons] at hstream
    exact hstream.1
  exact (hs.record hf).1.append hlog hact hstart hcur.symm (hcur ▸ hle) hpos.tlm_start

/-- The closing edge ends a recording capture, and its sampling starts at entry 0 (R453). -/
theorem State.CaptureOk.windowClosed {u : Sample} {rest : List Sample} (hpos : s.PositionsOk) (hf : s.fsm = Fsm.tlmRecord)
    (hp : s.edge.pending = u :: rest) (hx : tlmExceeded s.sampleRate s.kbps (u.toNat - s.tlmStart.toNat) = true) :
    State.CaptureOk { s with
      tlmLog := s.tlmLog ++ [{ level := s.edge.curLevel.other, t := u }], tlmEnd := u, fsm := Fsm.tlmSample,
      edge := { s.edge with curPos := u, curLevel := s.edge.curLevel.other, pending := rest } } := by
  obtain ⟨hlog, hk, hj⟩ := hs.record hf
  obtain ⟨entries, hfirst, -⟩ := State.logOk_iff.mp hlog
  have hread : (s.tlmLog ++ [{ level := s.edge.curLevel.other, t := u }])[s.tlmJ]? =
      some { level := s.act, t := s.tlmStart } := by simp [hj, hfirst]
  exact .of_tlmSample rfl (hs.logOk_recorded hpos hf hp ⟨rfl, rfl, rfl, rfl⟩) hx (by simp) hread (by simp)

/-- A sample moves the read cursor to an entry at or before its own point, and so at or before the next one (R456). -/
theorem State.CaptureOk.walkTo (hf : s.fsm = Fsm.tlmSample) : ∃ e, s.logRead (s.walkTo s.tlmK.toNat) = some e ∧
    40 * (e.t.toNat - s.tlmStart.toNat) ≤ samplePoint40 s.tlmK.toNat s.tlmDuration := by
  obtain ⟨-, -, -, e, he, hle⟩ := hs.sample hf
  exact (walkLog_stops rfl he hle).1

/-- The decoder's operations keep a capture in order, one case for each code that they enter. -/
theorem Completes.captureOk {i : Instr} {t : State} (h : Completes i s t) (hi : i = decodeFsm s.fsm) (hk : s.tlmK.toNat ≤ 19)
    (hpos : s.PositionsOk) : t.CaptureOk := by
  cases h with
  | held | stayed => exact hs
  | emitted hp | wordLoaded hp | dataLoaded hp | configWritten hp => exact absurd (space_of_decoded hi) hp
  | exhausted | cancelled => exact .of_fsm (c := Fsm.done) rfl (by decide)
  | aligned | nextAttempt => exact .of_fsm (c := Fsm.scanBit) rfl (by decide)
  | bitRead => exact .of_fsm (c := Fsm.scanBit) (fsm_eq_of_decoded hi rfl) (by decide)
  | bitErrored => exact .of_fsm (c := Fsm.emitAbort) rfl (by decide)
  | lastBitRead => exact .of_fsm (c := Fsm.emitCmd) rfl (by decide)
  | overflowed => exact .of_fsm (c := Fsm.fault) rfl (by decide)
  | tlmEmitted | cmdEmitted | cmdRefuted | aborted => exact .of_fsm (c := Fsm.checkpoint) rfl (by decide)
  | captureOpened c => exact .of_tlmRecord rfl ⟨State.logOk_iff.mpr ⟨[], rfl, rfl, nofun⟩, rfl, rfl⟩
  | recorded u rest hp =>
    have hf : s.fsm = Fsm.tlmRecord := fsm_eq_of_decoded hi rfl
    obtain ⟨-, hk, hj⟩ := hs.record hf
    exact .of_tlmRecord hf ⟨hs.logOk_recorded hpos hf hp ⟨rfl, rfl, rfl, rfl⟩, hk, hj⟩
  | windowClosed u rest hp hx => exact hs.windowClosed hpos (fsm_eq_of_decoded hi rfl) hp hx
  | sampled l hl h19 =>
    have hf : s.fsm = Fsm.tlmSample := fsm_eq_of_decoded hi rfl
    obtain ⟨hlog, hx, hlast, -⟩ := hs.sample hf
    obtain ⟨e, he, hle⟩ := hs.walkTo hf
    have hnext : s.tlmK.toNat ≤ (s.tlmK + 1).toNat := by
      rw [BitVec.toNat_add_of_lt (by simp; omega)]
      exact Nat.le_add_right _ _
    exact .of_tlmSample hf hlog hx hlast he (Nat.le_trans hle (samplePoint40_mono _ hnext))
  | lastSampled =>
    obtain ⟨-, hx, -⟩ := hs.sample (fsm_eq_of_decoded hi rfl)
    exact .of_emitTlm rfl (State.tlmStart_lt_tlmEnd hx)

end

/-! ## The unscanned bits of `word` -/

/-- Outside SCAN_BIT and EMIT_ABORT nothing is asked of `word`. -/
theorem State.wordOk_of_fsm {t : State} {c : BitVec 4} (hf : t.fsm = c) (hc : c ≠ Fsm.scanBit ∧ c ≠ Fsm.emitAbort) :
    t.wordOk := by
  subst hf
  obtain ⟨hscan, habort⟩ := hc
  exact fun h => (h.elim hscan habort).elim

/-- A cleared `word` has no bit set. -/
theorem State.wordOk_of_word_eq_zero {t : State} (h : t.word = 0) : t.wordOk := fun _ j _ => by simp [h]

/-- The decoder's operations write a bit of `word` only as it is scanned (R411), and an errored bit is not written (R603). -/
theorem Completes.wordOk {i : Instr} {s t : State} (h : Completes i s t) (hi : i = decodeFsm s.fsm) (hs : s.wordOk) :
    t.wordOk := by
  cases h with
  | held | stayed => exact hs
  | emitted hp | wordLoaded hp | dataLoaded hp | configWritten hp => exact absurd (space_of_decoded hi) hp
  | aligned | nextAttempt => exact State.wordOk_of_word_eq_zero rfl
  | bitErrored => exact fun _ => hs (.inl (fsm_eq_of_decoded hi rfl))
  | bitRead r w c hp hw hlt =>
    intro _ j hj
    have hnext : (s.bitIdx + 1).toNat = s.bitIdx.toNat + 1 := BitVec.toNat_add_of_lt (by simp; omega)
    replace hj : j + (s.bitIdx + 1).toNat < 16 := hj
    have hbit := getLsbD_setBit s.word (15 - s.bitIdx.toNat) j (isOne s.spb w) (by omega)
    rw [if_neg (by omega)] at hbit
    exact hbit.trans (hs (.inl (fsm_eq_of_decoded hi rfl)) j (by omega))
  | exhausted | cancelled => exact State.wordOk_of_fsm (c := Fsm.done) rfl (by decide)
  | captureOpened => exact State.wordOk_of_fsm (c := Fsm.tlmRecord) rfl (by decide)
  | lastBitRead => exact State.wordOk_of_fsm (c := Fsm.emitCmd) rfl (by decide)
  | overflowed => exact State.wordOk_of_fsm (c := Fsm.fault) rfl (by decide)
  | recorded => exact State.wordOk_of_fsm (c := Fsm.tlmRecord) (fsm_eq_of_decoded hi rfl) (by decide)
  | windowClosed => exact State.wordOk_of_fsm (c := Fsm.tlmSample) rfl (by decide)
  | sampled => exact State.wordOk_of_fsm (c := Fsm.tlmSample) (fsm_eq_of_decoded hi rfl) (by decide)
  | lastSampled => exact State.wordOk_of_fsm (c := Fsm.emitTlm) rfl (by decide)
  | tlmEmitted | cmdEmitted | cmdRefuted | aborted => exact State.wordOk_of_fsm (c := Fsm.checkpoint) rfl (by decide)

/-! ## The trace -/

/-- Events whose command frames are consistent and whose frames, packet commits and result commits are equally many: what
`State.TraceOk` asks of the trace. -/
def Balanced (es : List Event) : Prop :=
  (∀ f, .cmdFrame f ∈ es → f.consistent = true) ∧ es.countP isFrame = es.count .commitPacket ∧
    es.countP isFrame = es.count .commitResults

theorem State.traceOk_iff {s : State} : s.TraceOk ↔ Balanced s.trace :=
  ⟨fun ⟨hf, hp, hr⟩ => ⟨hf, hp, hr⟩, fun ⟨hf, hp, hr⟩ => ⟨hf, hp, hr⟩⟩

theorem Balanced.append {es es' : List Event} (h : Balanced es) (h' : Balanced es') : Balanced (es ++ es') := by
  obtain ⟨hf, hp, hr⟩ := h
  obtain ⟨hf', hp', hr'⟩ := h'
  refine ⟨fun f hm => (List.mem_append.mp hm).elim (hf f) (hf' f), ?_, ?_⟩
  · rw [List.countP_append, List.count_append, hp, hp']
  · rw [List.countP_append, List.count_append, hr, hr']

theorem balanced_marker (c : MarkerClass) (p : Sample) : Balanced [.marker c p] := by simp [Balanced, isFrame]

/-- The command frame of a word is consistent (R550, R552). -/
theorem commandFrame_consistent (word : BitVec 16) (ok : Bool) (start stop : Sample) :
    (commandFrame word ok start stop).consistent = true := by
  simp [CmdFrame.consistent, commandFrame, payloadOf, tlmReqOf]

/-- An attempt is closed with one frame and one commit of each kind (R555, R564). -/
theorem balanced_closeAttempt {s : State} {frame : Event} {p : Sample} (h : Balanced s.trace) (hframe : isFrame frame = true)
    (hf : ∀ f, frame = .cmdFrame f → f.consistent = true) : Balanced (s.closeAttempt frame p).trace := by
  have hattempt : Balanced [frame, .commitPacket, .commitResults] := by
    refine ⟨fun f hm => hf f ?_, ?_⟩
    · simpa [eq_comm] using hm
    · cases frame with
      | cmdFrame | tlmFrame => exact ⟨rfl, rfl⟩
      | marker | commitPacket | commitResults => cases hframe
  rw [State.closeAttempt_eq]
  exact h.append hattempt

theorem balanced_closeAttempt_cmdFrame {s : State} {p : Sample} (h : Balanced s.trace) (word : BitVec 16) (ok : Bool)
    (start stop : Sample) : Balanced (s.closeAttempt (.cmdFrame (commandFrame word ok start stop)) p).trace :=
  balanced_closeAttempt h rfl fun f hf => by
    cases hf
    exact commandFrame_consistent word ok start stop

/-- The decoder's operations emit markers, and frames each with its two commits. -/
theorem Completes.balanced {i : Instr} {s t : State} (h : Completes i s t) (hi : i = decodeFsm s.fsm) (hs : Balanced s.trace) :
    Balanced t.trace := by
  cases h with
  | emitted hp | wordLoaded hp | dataLoaded hp | configWritten hp => exact absurd (space_of_decoded hi) hp
  | bitErrored | lastBitRead | bitRead | sampled | lastSampled => exact hs.append (balanced_marker _ _)
  | tlmEmitted => exact balanced_closeAttempt hs rfl nofun
  | cmdEmitted | aborted => exact balanced_closeAttempt_cmdFrame hs _ _ _ _
  | cmdRefuted => exact balanced_closeAttempt_cmdFrame (hs.append (balanced_marker _ _)) _ _ _ _
  | _ => exact hs

/-! ## The invariant in reset -/

/-- In reset the invariant is that the registers are at their reset values, the configuration keeps its format, and the stream
attached is in order. -/
theorem State.Inv.of_atReset {s : State} (hat : s.atReset) (hctrl : s.cfgCtrl.extractLsb' 3 29 = 0)
    (hline : s.cfgLine < 2 ^ Config.lineIdWidth) (hstream : nonDecreasing s.edge.curPos s.edge.pending = true)
    (hsched : s.specSchedule) : s.Inv := by
  have hzero : 0 ≤ s.edge.curPos := BitVec.le_def.mpr (Nat.zero_le _)
  have hrun : State.reset.stopCause ≠ 0 ↔ State.reset.fsm = Fsm.done := by decide
  unfold State.atReset at hat
  rw [hat] at hctrl hline hstream hsched ⊢
  exact {
    schedule := hsched
    codes := {
      fsm_defined := Nat.zero_le 9
      stop_iff_done := hrun
      stop_cause := Nat.zero_le 2
      fault_code := rfl
      tlm_k := Nat.zero_le 19
      cfg_reserved := hctrl
      cfg_line := hline
      config_legal := nofun
      reset_values := fun _ => rfl }
    positions := ⟨hstream, hzero, hzero, hzero, hzero, hzero⟩
    capture := .of_fsm (c := Fsm.align) rfl (by decide)
    word := State.wordOk_of_word_eq_zero rfl
    trace := ⟨nofun, rfl, rfl⟩ }

theorem reset_cfgCtrl_reserved : State.reset.cfgCtrl.extractLsb' 3 29 = 0 := rfl

/-- Settles O54: the reset state is in reset, with an empty configuration and no stream attached. -/
theorem resetMeetsTheInvariant : Obligations.ResetMeetsTheInvariant :=
  State.Inv.of_atReset rfl reset_cfgCtrl_reserved (Nat.two_pow_pos _) rfl nofun

/-- In reset the registers stay at their reset values, whatever the host and the edge source do to the rest. -/
theorem State.atReset.environment {s : State} (h : s.atReset) (ctrl : BitVec 32) (rate : BitVec 64) (line : Nat)
    (n : Option Nat) (e : EdgeInput) (l : List Move) :
    State.atReset
      { s with cfgCtrl := ctrl, cfgSampleRate := rate, cfgLine := line, cancelAt := n, edge := e, schedule := l } := by
  unfold State.atReset at h ⊢
  rw [h]

/-! ## The invariant under the moves of the host and of the edge source -/

/-- The reserved bits of a written `CFG_CTRL` are 0 (R103). -/
theorem extractLsb'_and_seven (v : BitVec 32) : (v &&& 7).extractLsb' 3 29 = 0 := by
  rw [BitVec.extractLsb'_and, show (7 : BitVec 32).extractLsb' 3 29 = 0 from rfl]
  exact BitVec.and_zero

section
variable {s : State} (h : s.Inv)
include h

/-- The invariant reads neither `cancel_req`, outside reset, nor the countdown; of the edge input it reads the cursor's position
and the order of the stream, and of the schedule that it is of the spec's moves. -/
theorem State.Inv.environment {q : Bool} {n : Option Nat} {e : EdgeInput} {l : List Move}
    (hq : s.inReset = true → q = s.cancelReq) (hpos : e.curPos = s.edge.curPos)
    (hstream : nonDecreasing e.curPos e.pending = true) (hsched : ∀ m ∈ l, m.ofSpec = true) :
    State.Inv { s with cancelReq := q, cancelAt := n, edge := e, schedule := l } := by
  obtain ⟨-, codes, positions, capture, word, trace⟩ := h
  have hreset : s.inReset = true →
      State.atReset { s with cancelReq := q, cancelAt := n, edge := e, schedule := l } := fun hr => by
    rw [hq hr]
    exact (codes.reset_values hr).environment _ _ _ _ _ _
  have hlog (hlog : s.logOk) : State.logOk { s with cancelReq := q, cancelAt := n, edge := e, schedule := l } := by
    rw [State.logOk_iff] at hlog ⊢
    rwa [← hpos] at hlog
  exact {
    schedule := hsched
    codes := { codes with reset_values := hreset }
    positions := ⟨hstream, hpos ▸ positions.last_end, hpos ▸ positions.frame_start, hpos ▸ positions.rising,
      hpos ▸ positions.tlm_start, hpos ▸ positions.tlm_end⟩
    capture := ⟨fun hf => (capture.record hf).imp_left hlog, fun hf => (capture.sample hf).imp_left hlog, capture.emit⟩
    word := word
    trace := ⟨trace.frames_consistent, trace.packets, trace.results⟩ }

/-- Releasing reset starts a run with a legal configuration (R701). -/
theorem State.Inv.released (hlegal : s.inReset = true → s.configLegal = true) : State.Inv { s with inReset := false } := by
  obtain ⟨schedule, codes, positions, capture, word, trace⟩ := h
  have hlegal' : s.configLegal = true := by
    cases hr : s.inReset with
    | true => exact hlegal hr
    | false => exact codes.config_legal hr
  exact {
    schedule := schedule
    codes := { codes with config_legal := fun _ => hlegal', reset_values := nofun }
    positions := ⟨positions.stream, positions.last_end, positions.frame_start, positions.rising, positions.tlm_start,
      positions.tlm_end⟩
    capture := ⟨capture.record, capture.sample, capture.emit⟩
    word := word
    trace := ⟨trace.frames_consistent, trace.packets, trace.results⟩ }

/-- In reset the host may write the configuration in its format, and the edge source may be attached (R106, R702). -/
theorem State.Inv.configured (hr : s.inReset = true) {ctrl : BitVec 32} {rate : BitVec 64} {line : Nat} {e : EdgeInput}
    (hctrl : ctrl.extractLsb' 3 29 = 0) (hline : line < 2 ^ Config.lineIdWidth)
    (hstream : nonDecreasing e.curPos e.pending = true) :
    State.Inv { s with cfgCtrl := ctrl, cfgSampleRate := rate, cfgLine := line, edge := e } :=
  .of_atReset ((h.codes.reset_values hr).environment ctrl rate line s.cancelAt e s.schedule) hctrl hline hstream h.schedule

/-- Every accepted move of the host or of the edge source keeps the invariant. -/
theorem State.Inv.envMove {m : EnvMove} {t : State} (hm : m.apply s = .next t) : t.Inv := by
  have hctrl := h.codes.cfg_reserved
  have hline := h.codes.cfg_line
  have hstream := h.positions.stream
  obtain rfl | rfl | ⟨hlegal, rfl⟩ | ⟨hr, v, rfl⟩ | ⟨hr, v, rfl⟩ | ⟨hr, v, rfl⟩ | ⟨hr, rfl⟩ | ⟨n, rfl⟩ | ⟨hr, c, hc, rfl⟩ |
    ⟨u, -, hu, rfl⟩ | rfl := EnvMove.apply_cases hm
  · exact h
  · exact .of_atReset rfl reset_cfgCtrl_reserved (Nat.two_pow_pos _) hstream h.schedule
  · exact h.released hlegal
  · exact h.configured hr (extractLsb'_and_seven v) hline hstream
  · exact h.configured hr hctrl hline hstream
  · exact h.configured hr hctrl (Nat.mod_lt v (Nat.two_pow_pos _)) hstream
  · exact h.environment (by simp [hr]) rfl hstream h.schedule
  · exact h.environment (fun _ => rfl) rfl hstream h.schedule
  · exact h.configured hr hctrl hline hc
  · exact h.environment (fun _ => rfl) rfl (nonDecreasing_concat.mpr ⟨hstream, hu⟩) h.schedule
  · exact h.environment (fun _ => rfl) rfl hstream h.schedule

end

/-! ## The invariant under every step -/

/-- The decoder's operations keep the invariant, part by part. -/
theorem Completes.inv {i : Instr} {s t : State} (h : Completes i s t) (hi : i = decodeFsm s.fsm) (hr : s.inReset = false)
    (hs : s.Inv) : t.Inv := by
  obtain ⟨schedule, codes, positions, capture, word, trace⟩ := hs
  obtain ⟨-, -, -, hsched⟩ := h.control
  exact {
    schedule := by rwa [State.specSchedule, hsched]
    codes := h.codesOk hi hr codes
    positions := h.positionsOk positions
    capture := h.captureOk capture hi codes.tlm_k positions
    word := h.wordOk hi word
    trace := State.traceOk_iff.mpr (h.balanced hi (State.traceOk_iff.mp trace)) }

/-- Settles O55: the schedule goes on, and then the decoder's operation runs after the landing of a cancel, or another agent moves;
of the spec's moves none is a value at a port. -/
theorem stepKeepsTheInvariant : Obligations.StepKeepsTheInvariant := by
  intro s s' hs h
  have hnext {q : Bool} {n : Option Nat} {rest : List Move} (hq : s.inReset = true → q = s.cancelReq)
      (hrest : ∀ m ∈ rest, m ∈ s.schedule) : State.Inv { s with cancelReq := q, cancelAt := n, schedule := rest } :=
    hs.environment hq rfl hs.positions.stream fun m hm => hs.schedule m (hrest m hm)
  obtain ⟨rest, hsched, hblock⟩ | ⟨c, i, rest, hsched, -⟩ | ⟨m, rest, hsched, hm⟩ := step_cases h
  · have hrest : ∀ m ∈ rest, m ∈ s.schedule := by
      obtain heq | ⟨m, heq⟩ := hsched <;> rw [heq]
      · exact fun _ => id
      · exact fun _ => List.mem_cons_of_mem m
    obtain ⟨-, rfl⟩ | ⟨hr, -, hx⟩ := hblock
    · exact hnext (fun _ => rfl) hrest
    · obtain ⟨q, n, -, hland⟩ := State.landCancel_eq { s with schedule := rest }
      rw [hland] at hx
      exact (completes_of_exec hx).inv rfl hr (hnext (by simp [hr]) hrest)
  · exact absurd (hs.schedule (.value c) (by simp [hsched])) nofun
  · exact (hnext (fun _ => rfl) fun _ => by rw [hsched]; exact List.mem_cons_of_mem _).envMove hm

end Machine

end Sys2Proof

/-! # The eleventh family of proofs: values at the ports, reset, the host and the edge source -/

namespace Sys2Proof

namespace Machine

/-! ## Values at a port -/

/-- A value that the schedule places at an open port is decoded and run. -/
theorem step_of_schedule_value {s : State} {c : CodeWord} {rest : List Move} (h : s.schedule = .value c :: rest)
    (hp : s.portOpen c = true) : step s = runDecoded (decodePort c) { s with schedule := rest } := by
  unfold step
  rw [h]
  exact if_pos hp

/-- Settles O11: the port's decoder answers, and its instruction is run, or the block is stuck. -/
theorem stepRunsTheValueAtAPort : Obligations.StepRunsTheValueAtAPort := by
  intro s c i rest hs hp hd
  rw [step_of_schedule_value hs hp, hd]
  exact ⟨fun hc => runDecoded_ok hc, fun hc => runDecoded_stuck hc⟩

/-- Settles O38: a command word is its three fields one above the other, and a telemetry word is taken as it is. -/
theorem lineWordsLandInTheirRegisters : Obligations.LineWordsLandInTheirRegisters :=
  ⟨fun _ p t c => ⟨_, rfl, rfl, extractLsb'_of_three_fields p t c⟩, fun _ _ => rfl⟩

/-- The mask of `CFG_CTRL` keeps BIDIR and RATE and clears the reserved bits (R103). -/
theorem extractLsb'_and_seven_of_fields (z : BitVec 29) (b : BitVec 1) (r : BitVec 2) :
    ((z ++ b ++ r) &&& 7).extractLsb' 3 29 = 0 ∧ ((z ++ b ++ r) &&& 7).extractLsb' 2 1 = b ∧
    ((z ++ b ++ r) &&& 7).extractLsb' 0 2 = r := by
  obtain ⟨-, hb, hr⟩ := extractLsb'_of_three_fields z b r
  have hbmask : (7 : BitVec 32).extractLsb' 2 1 = BitVec.allOnes 1 := rfl
  have hrmask : (7 : BitVec 32).extractLsb' 0 2 = BitVec.allOnes 2 := rfl
  refine ⟨extractLsb'_and_seven _, ?_, ?_⟩
  · rw [BitVec.extractLsb'_and, hb, hbmask, BitVec.and_allOnes]
  · rw [BitVec.extractLsb'_and, hr, hrmask, BitVec.and_allOnes]

/-- Settles O39: the value is the host's write of the control register. -/
theorem cfgCtrlIsWrittenOnlyInReset : Obligations.CfgCtrlIsWrittenOnlyInReset := by
  have hexec (s : State) (z : BitVec 29) (b : BitVec 1) (r : BitVec 2) :
      exec (.cfgCtrl z b r) s =
        .next { s with cfgCtrl := if s.inReset then (z ++ b ++ r) &&& 7 else s.cfgCtrl } :=
    congrArg Host.Outcome.next (s.writeCfgCtrl_eq _)
  refine ⟨fun s z b r hr => ⟨_, hexec s z b r, rfl, ?_⟩, fun s z b r hr => ?_⟩
  · rw [hr]
    exact extractLsb'_and_seven_of_fields z b r
  · rw [hexec, if_neg (Bool.eq_false_iff.mp hr)]

/-! ## Reset -/

/-- Settles O12: the reset values are those of `State.reset`, which asserting reset puts in place. -/
theorem resetHoldsTheSpecValues : Obligations.ResetHoldsTheSpecValues := by
  refine ⟨by decide, fun s rest hs => ⟨_, step_env hs, ?_⟩⟩
  exact ⟨rfl, rfl, rfl, rfl, rfl, rfl, rfl⟩

/-- In reset the decoder's step is not taken (R701). -/
theorem blockStep_of_inReset {s : State} (h : s.inReset = true) : blockStep s = .next s := if_pos h

/-- Settles O13: by itself or scheduled, the decoder's step is `blockStep`. -/
theorem blockTakesNoStepInReset : Obligations.BlockTakesNoStepInReset := by
  refine ⟨fun s hr hs => ?_, fun s rest hr hs => ?_⟩
  · exact (step_of_schedule_nil hs).trans (blockStep_of_inReset hr)
  · exact (step_of_schedule_block hs).trans (blockStep_of_inReset hr)

/-! ## The edge source -/

/-- In reset a well-formed stream is attached, and any other is refused (R612). -/
theorem State.attachStream_of_inReset {s : State} (h : s.inReset = true) (c : EdgeInput) :
    s.attachStream c = if nonDecreasing c.curPos c.pending then .next { s with edge := c } else .refused .streamIllFormed :=
  if_neg (by simp [h])

/-- Settles O15: the check of the attachment is that the timestamps, from the start position on, are in order pair by pair. -/
theorem onlyWellFormedStreamsAreAttached : Obligations.OnlyWellFormedStreamsAreAttached := by
  intro s rest l p ts cl hr hs
  have hattach : step s = if nonDecreasing p ts
      then .next { s with edge := { curPos := p, curLevel := l, pending := ts, closed := cl }, schedule := rest }
      else .refused .streamIllFormed :=
    (step_env hs).trans (State.attachStream_of_inReset (s := { s with schedule := rest }) hr _)
  rw [hattach, ← nonDecreasing_iff_pairwise]
  exact ⟨fun hord => if_pos hord, fun hord => if_neg hord⟩

/-- Settles O16: on an open stream the order alone decides on an edge. -/
theorem edgeSourceAppendsInOrder : Obligations.EdgeSourceAppendsInOrder := by
  refine ⟨fun s rest t hs hc => ?_, fun s rest hs => step_env hs⟩
  have hstep : step s = State.appendEdge { s with schedule := rest } t := step_env hs
  rw [hstep]
  exact ⟨fun hle => if_pos ⟨hc, hle⟩, fun hlt => if_neg fun h => hlt h.2⟩

/-! ## Register writes of the host -/

/-- The sample rate is written only in reset (R104, R106). -/
theorem State.writeCfgSampleRate_eq (s : State) (v : BitVec 64) :
    s.writeCfgSampleRate v = { s with cfgSampleRate := if s.inReset then v else s.cfgSampleRate } := by
  unfold State.writeCfgSampleRate
  split <;> rfl

/-- The line is written only in reset (R105, R106). -/
theorem State.writeCfgLine_eq (s : State) (v : Nat) :
    s.writeCfgLine v = { s with cfgLine := if s.inReset then v % 2 ^ Config.lineIdWidth else s.cfgLine } := by
  unfold State.writeCfgLine
  split <;> rfl

/-- Settles O17: each write is that of its register. -/
theorem hostWritesRegisters : Obligations.HostWritesRegisters := by
  refine ⟨fun s rest v hs => ?_, fun s rest v hs => ?_, fun s rest v hs => ?_, fun s rest v hs => ?_⟩
  · have hw : step s = .next (State.writeCfgCtrl { s with schedule := rest } (BitVec.ofNat 32 v.toNat)) := step_env hs
    rw [hw, ofNat_toNat_word, State.writeCfgCtrl_eq]
  · have hw : step s = .next (State.writeCfgSampleRate { s with schedule := rest } (BitVec.ofNat 64 v.toNat)) := step_env hs
    rw [hw, ofNat_toNat_word, State.writeCfgSampleRate_eq]
  · have hw : step s = .next (State.writeCfgLine { s with schedule := rest } v) := step_env hs
    rw [hw, State.writeCfgLine_eq]
  · have hw : step s = .next (State.writeCancel { s with schedule := rest } (BitVec.ofNat 32 v.toNat)) := step_env hs
    rw [hw, ofNat_toNat_word, State.writeCancel_eq]

end Machine

end Sys2Proof

/-! # The twelfth family of proofs: operations that lack an edge -/

namespace Sys2Proof

namespace Machine

/-- Settles O20: the skip passes no edge at the active level, and one at the inactive level. -/
theorem skipPassesAtMostOneEdge : Obligations.SkipPassesAtMostOneEdge := by
  intro c c' inact h
  refine ⟨(EdgeInput.skipInactive_ok h).1, ?_⟩
  obtain ⟨hl, hs⟩ | ⟨hl, ⟨t, rest, hp, hs⟩ | ⟨-, -, hs⟩ | ⟨-, -, hs⟩⟩ := c.skipInactive_cases inact <;> cases hs.symm.trans h
  · exact .inl ⟨hl, rfl⟩
  · exact .inr ⟨hl, t, rest, hp, by rw [hl]⟩

/-! ## What a read without an edge gives -/

/-- What a read of the edge input gives where no edge is pending: it holds, or on a closed stream it is exhausted (R202, R203). -/
def EdgeInput.wait {α : Type} (c : EdgeInput) : EdgeRead α := if c.closed then .exhausted c else .hold

theorem EdgeInput.advance_eq_wait {c : EdgeInput} (h : c.pending = []) : c.advance = c.wait := EdgeInput.advance_nil h

theorem EdgeInput.peek_eq_wait {c : EdgeInput} (h : c.pending = []) : c.peek = c.wait := EdgeInput.peek_nil h

/-- What follows a read that waits does not run. -/
theorem EdgeInput.bind_wait {α β : Type} (c : EdgeInput) (f : α → EdgeInput → EdgeRead β) :
    (c.wait : EdgeRead α).bind f = c.wait := by
  unfold EdgeInput.wait
  split <;> rfl

theorem EdgeInput.skipInactive_eq_wait {c : EdgeInput} {inact : Level} (hl : c.curLevel = inact) (hp : c.pending = []) :
    c.skipInactive inact = c.wait := by
  rw [EdgeInput.skipInactive_inactive hl, EdgeInput.advance_eq_wait hp, EdgeInput.bind_wait]

/-- On an open stream an operation that waits leaves the state as it was (R212). -/
theorem settle_wait_of_open {s : State} {c : EdgeInput} (h : c.closed = false) : settle s c.wait = .next s := by
  simp [EdgeInput.wait, h]

/-- On a closed stream an operation that waits ends the run where it stands (R605). -/
theorem settle_wait_of_closed {s : State} {c : EdgeInput} (h : c.closed = true) :
    ∃ t, settle s c.wait = .next t ∧ s.endsExhausted t c :=
  ⟨s.raiseExhausted c, by simp [EdgeInput.wait, h], ⟨rfl, rfl, rfl, rfl, rfl, rfl⟩⟩

/-! ## Where the operations wait -/

section
variable {s : State}

/-- ALIGN waits in the skip. -/
theorem State.align_eq_wait (hl : s.edge.curLevel = s.inact) (hp : s.edge.pending = []) : s.align = s.edge.wait := by
  rw [State.align, EdgeInput.skipInactive_eq_wait hl hp, EdgeInput.bind_wait]

/-- TLM_RECORD waits for its transition. -/
theorem State.tlmRecord_eq_wait (hp : s.edge.pending = []) : s.tlmRecord = s.edge.wait := by
  rw [State.tlmRecord, EdgeInput.advance_eq_wait hp, EdgeInput.bind_wait]

/-- SCAN_BIT waits in the skip. -/
theorem State.scanBit_eq_wait_of_skip (hl : s.edge.curLevel = s.inact) (hp : s.edge.pending = []) :
    s.scanBit = s.edge.wait := by
  rw [State.scanBit, EdgeInput.skipInactive_eq_wait hl hp, EdgeInput.bind_wait]

variable {c : EdgeInput} (hskip : s.edge.skipInactive s.inact = .ok () c)
  (hgap : inTlmWindow s.sampleRate (c.curPos.toNat - s.lastEnd.toNat) = false)
include hskip

/-- The skip neither closes nor opens the stream. -/
theorem EdgeInput.closed_of_skipInactive : c.closed = s.edge.closed := by
  obtain ⟨-, n, -, hc⟩ := EdgeInput.skipInactive_ok hskip
  exact hc.closed

include hgap

/-- SCAN_BIT outside the telemetry window, after its skip: the falling edge, the error test, the end of the bit (R404). -/
theorem State.scanBit_of_gap : s.scanBit = c.advance.bind fun f c' =>
    ((s.leadingEdge c.curPos).bitError (f.toNat - c.curPos.toNat) f c').bind fun err c' =>
      .ok ((s.leadingEdge c.curPos).closeBit c.curPos (f.toNat - c.curPos.toNat) err) c' := by
  rw [State.scanBit, hskip, EdgeRead.bind_ok]
  exact if_neg (Bool.eq_false_iff.mp hgap)

/-- SCAN_BIT waits for the falling edge. -/
theorem State.scanBit_eq_wait_of_fall (hp : c.pending = []) : s.scanBit = c.wait := by
  rw [State.scanBit_of_gap hskip hgap, EdgeInput.advance_eq_wait hp, EdgeInput.bind_wait]

/-- SCAN_BIT waits for the lookahead, after a pulse that is not short and before the last bit, with the falling edge consumed. -/
theorem State.scanBit_eq_wait_of_lookahead {f : Sample} (hp : c.pending = [f])
    (hs : isShort s.spb (f.toNat - c.curPos.toNat) = false) (hi : s.bitIdx.toNat < 15) :
    s.scanBit = EdgeInput.wait { c with curPos := f, curLevel := c.curLevel.other, pending := [] } := by
  have herr : (s.leadingEdge c.curPos).bitError (f.toNat - c.curPos.toNat) f
      { c with curPos := f, curLevel := c.curLevel.other, pending := [] } =
      EdgeInput.wait { c with curPos := f, curLevel := c.curLevel.other, pending := [] } := by
    simp [State.bitError, hs, hi, EdgeInput.peek_eq_wait, EdgeInput.bind_wait]
  rw [State.scanBit_of_gap hskip hgap, EdgeInput.advance_cons hp, EdgeRead.bind_ok, herr, EdgeInput.bind_wait]

end

/-- Settles O21: on an open stream each wait is a hold. -/
theorem missingEdgeOnAnOpenStreamHolds : Obligations.MissingEdgeOnAnOpenStreamHolds := by
  refine ⟨fun s hc hp hl => ⟨?_, ?_⟩, fun s hc hp => ?_, fun s c hc hskip hgap => ⟨fun hp => ?_, fun f hp hs hi => ?_⟩⟩
  · exact (congrArg (settle s) (State.align_eq_wait hl hp)).trans (settle_wait_of_open hc)
  · exact (congrArg (settle s) (State.scanBit_eq_wait_of_skip hl hp)).trans (settle_wait_of_open hc)
  · exact (congrArg (settle s) (State.tlmRecord_eq_wait hp)).trans (settle_wait_of_open hc)
  · have hopen : c.closed = false := (EdgeInput.closed_of_skipInactive hskip).trans hc
    exact (congrArg (settle s) (State.scanBit_eq_wait_of_fall hskip hgap hp)).trans (settle_wait_of_open hopen)
  · have hopen : c.closed = false := (EdgeInput.closed_of_skipInactive hskip).trans hc
    exact (congrArg (settle s) (State.scanBit_eq_wait_of_lookahead hskip hgap hp hs hi)).trans (settle_wait_of_open hopen)

/-- Settles O22: on a closed stream each wait ends the run, with the edges consumed before it. -/
theorem missingEdgeOnAClosedStreamEndsTheRun : Obligations.MissingEdgeOnAClosedStreamEndsTheRun := by
  have hends {s : State} {r : EdgeRead State} {c : EdgeInput} (hr : r = c.wait) (hc : c.closed = true) :
      ∃ t, settle s r = .next t ∧ s.endsExhausted t c := hr ▸ settle_wait_of_closed hc
  refine ⟨fun s hc hp hl => ⟨?_, ?_⟩, fun s hc hp => ?_, fun s c hc hskip hgap => ⟨fun hp => ?_, fun f hp hs hi => ?_⟩⟩
  · exact hends (State.align_eq_wait hl hp) hc
  · exact hends (State.scanBit_eq_wait_of_skip hl hp) hc
  · exact hends (State.tlmRecord_eq_wait hp) hc
  · exact hends (State.scanBit_eq_wait_of_fall hskip hgap hp) ((EdgeInput.closed_of_skipInactive hskip).trans hc)
  · exact hends (State.scanBit_eq_wait_of_lookahead hskip hgap hp hs hi) ((EdgeInput.closed_of_skipInactive hskip).trans hc)

end Machine

end Sys2Proof

/-! # The thirteenth family of proofs: what the operations leave unchanged -/

namespace Sys2Proof

namespace Machine

/-! ## ALIGN and SCAN_BIT -/

theorem execAlign_frame {s t : State} (h : execAlign s = .next t) :
    t = { s with word := t.word, bitIdx := t.bitIdx, fsm := t.fsm, stopCause := t.stopCause, edge := t.edge } := by
  obtain ⟨-, -, rfl⟩ | ⟨-, rfl⟩ | ⟨c, n, -, -, rfl⟩ := execAlign_cases h
  · rfl
  · rfl
  · rfl

/-- What SCAN_BIT leaves unchanged, for each of its endings. -/
theorem execScanBit_frame {s t : State} (h : execScanBit s = .next t) :
    (s.bitIdx ≠ 0 → t.frameStart = s.frameStart) ∧
    (∀ j, j ≠ 15 - s.bitIdx.toNat → t.word.getLsbD j = s.word.getLsbD j) ∧
    (∃ es, t.trace = s.trace ++ es ∧ es.length ≤ 1) ∧
    ((t = { s with
        rising := t.rising, frameStart := t.frameStart, tlmStart := t.tlmStart, tlmLog := t.tlmLog, tlmK := t.tlmK,
        tlmJ := t.tlmJ, tlmData := t.tlmData, fsm := t.fsm, edge := t.edge }) ∨
     (t = { s with
        rising := t.rising, frameStart := t.frameStart, word := t.word, bitIdx := t.bitIdx, stopCause := t.stopCause,
        fsm := t.fsm, edge := t.edge, trace := t.trace })) := by
  have hbit (i j : Nat) (b : Bool) (hi : i < 16) (hj : j ≠ i) : (setBit s.word i b).getLsbD j = s.word.getLsbD j :=
    (getLsbD_setBit s.word i j b hi).trans (if_neg hj)
  obtain ⟨-, -, rfl⟩ | ⟨-, c, n, -, -, rfl⟩ | ⟨c, n, -, -, -, -, -, rfl⟩ | ⟨r, w, err, c, n, -, -, -, -, -, rfl⟩ :=
    execScanBit_cases h
  · exact ⟨fun _ => rfl, fun _ _ => rfl, ⟨[], by simp⟩, .inl rfl⟩
  · exact ⟨fun _ => rfl, fun _ _ => rfl, ⟨[], by simp⟩, .inr rfl⟩
  · exact ⟨fun hi => if_neg hi, fun _ _ => rfl, ⟨[], by simp⟩, .inl rfl⟩
  · obtain ⟨-, he⟩ | ⟨-, hi, he⟩ | ⟨-, hi, he⟩ := (s.leadingEdge r).closeBit_cases r w err <;> rw [he]
    · exact ⟨fun hi => if_neg hi, fun _ _ => rfl, ⟨[_], rfl, Nat.le_refl 1⟩, .inr rfl⟩
    · replace hi : s.bitIdx.toNat = 15 := hi
      exact ⟨fun hi => if_neg hi, fun j hj => hbit 0 j _ (by omega) (by omega), ⟨[_], rfl, Nat.le_refl 1⟩, .inr rfl⟩
    · exact ⟨fun hi => if_neg hi, fun j hj => hbit _ j _ (by omega) hj, ⟨[_], rfl, Nat.le_refl 1⟩, .inr rfl⟩

/-- Settles O42: the frames of the two operations, ending by ending. -/
theorem alignAndScanBitFrame : Obligations.AlignAndScanBitFrame :=
  ⟨fun _ _ => execAlign_frame, fun _ _ => execScanBit_frame⟩

/-! ## The telemetry operations -/

/-- TLM_RECORD keeps the entries of the log that stand. -/
theorem execTlmRecord_frame {s t : State} (h : execTlmRecord s = .next t) :
    t = { s with tlmLog := t.tlmLog, tlmEnd := t.tlmEnd, fsm := t.fsm, stopCause := t.stopCause, faultCode := t.faultCode,
                 edge := t.edge } ∧
    ∀ j, j < s.tlmLog.length → t.logRead j = s.logRead j := by
  obtain ⟨-, -, rfl⟩ | ⟨-, rfl⟩ | ⟨cap, -, -, rfl⟩ | ⟨u, rest, -, rfl⟩ := execTlmRecord_cases h
  · exact ⟨rfl, fun _ _ => rfl⟩
  · exact ⟨rfl, fun _ _ => rfl⟩
  · exact ⟨rfl, fun _ _ => rfl⟩
  · obtain ⟨-, ht⟩ | ⟨-, ht⟩ :=
      State.testWindow_cases { s with tlmLog := s.tlmLog ++ [{ level := s.edge.curLevel.other, t := u }] } u <;> rw [ht]
    · exact ⟨rfl, fun j hj => List.getElem?_append_left hj⟩
    · exact ⟨rfl, fun j hj => List.getElem?_append_left hj⟩

/-- TLM_SAMPLE emits one marker and writes one bit of `tlm_data`. -/
theorem execTlmSample_frame {s t : State} (h : execTlmSample s = .next t) :
    t = { s with tlmJ := t.tlmJ, tlmK := t.tlmK, tlmData := t.tlmData, fsm := t.fsm, trace := t.trace } ∧
    (∃ e, t.trace = s.trace ++ [e]) ∧
    ∀ j, j ≠ 19 - s.tlmK.toNat → t.tlmData.getLsbD j = s.tlmData.getLsbD j := by
  cases h
  rw [State.closeSample_eq]
  exact ⟨rfl, ⟨_, rfl⟩, fun j hj => (getLsbD_setBit s.tlmData _ j _ (by omega)).trans (if_neg hj)⟩

/-- The end of an attempt writes `last_end` and `fsm`, and extends the trace. -/
theorem State.closeAttempt_frame {s t : State} {frame : Event} {p : Sample} (h : t = s.closeAttempt frame p) :
    t = { s with lastEnd := t.lastEnd, fsm := t.fsm, trace := t.trace } ∧ s.trace <+: t.trace := by
  rw [h, State.closeAttempt_eq]
  exact ⟨rfl, List.prefix_append _ _⟩

/-- Settles O43: the frames of the two operations on the log, and EMIT_TLM is the end of an attempt. -/
theorem telemetryFrame : Obligations.TelemetryFrame :=
  ⟨fun _ _ => execTlmRecord_frame, fun _ _ => execTlmSample_frame,
    fun _ _ h => State.closeAttempt_frame (Host.Outcome.next.inj h).symm⟩

/-! ## Frame assembly -/

theorem execEmitCmd_frame {s t : State} (h : execEmitCmd s = .next t) :
    t = { s with lastEnd := t.lastEnd, fsm := t.fsm, trace := t.trace } ∧ s.trace <+: t.trace := by
  cases h
  rw [State.crcMarker_eq, State.closeAttempt_eq]
  exact ⟨rfl, (List.prefix_append _ _).trans (List.prefix_append _ _)⟩

theorem execCheckpoint_frame {s t : State} (h : execCheckpoint s = .next t) :
    t = { s with stopCause := t.stopCause, fsm := t.fsm } ∨ t = { s with word := t.word, bitIdx := t.bitIdx, fsm := t.fsm } := by
  obtain hq | hq := Bool.eq_false_or_eq_true s.cancelReq
  · cases (execCheckpoint_of_cancelReq hq).symm.trans h
    exact .inl rfl
  · cases (execCheckpoint_of_not_cancelReq hq).symm.trans h
    exact .inr rfl

/-- Settles O44: the emissions are ends of an attempt, CHECKPOINT has two ends, and DONE and FAULT keep the state. -/
theorem frameAssemblyFrame : Obligations.FrameAssemblyFrame := by
  refine ⟨?_, fun _ _ => execCheckpoint_frame, ?_⟩
  · rintro s t (h | h)
    · exact execEmitCmd_frame h
    · exact State.closeAttempt_frame (Host.Outcome.next.inj h).symm
  · rintro s t (h | h)
    · exact (Host.Outcome.next.inj h).symm
    · exact (Host.Outcome.next.inj h).symm

end Machine

end Sys2Proof
